-- ==== Sys2Proof/Word.lean ====
section
/-!
DEFINITION. Sys2Proof/Word.lean: the widths of the codec block (spec/00_scope.md R10, spec/30_encoding.md R63).
A byte is 8 bits (R11), the command code, the checksum and the CRC accumulator are 16 bits, a command word is 32 bits.
-/

namespace Sys2Proof

/-- A byte of the wire, of a data operand or of a command word (R10, R11). -/
abbrev Byte := BitVec 8

/-- A 16-bit value: a command code, a checksum, the accumulator or a divisor register (R10). -/
abbrev Half := BitVec 16

/-- A command word `w` (R63); its bits are numbered from 0 at the least significant bit (R11). -/
abbrev CommandWord := BitVec 32

end Sys2Proof
end

