-- ==== Sys2Proof/Syntax.lean ====
section
/-!
DEFINITION. Sys2Proof/Syntax.lean: the commands of the block, one constructor per row of spec/opcode_table.json
(spec/30_encoding.md R65). A command is a command word and a data operand `D` (R63); a constructor carries the fields
its format gives the word (R64, R70) and, where its opcode takes one (R66), the data operand.
-/

namespace Sys2Proof

/-- The eight commands (R65). `d` is the data operand `D`, first byte first. -/
inductive Instr where
  /-- CRC_CLEAR, format N (R84). -/
  | crcClear
  /-- CRC_BYTE, format B: BYTE = w[7:0] (R85). -/
  | crcByte (byte : Byte)
  /-- CRC_READ, format N (R86). -/
  | crcRead
  /-- CHECKSUM, format S: the bytes to checksum (R87). -/
  | checksum (d : List Byte)
  /-- ENCODE, format H: ADDR = w[23:16], CODE = w[15:0], the payload (R101). -/
  | encode (addr : Byte) (code : Half) (d : List Byte)
  /-- DECODE, format S: the received bytes (R103). -/
  | decode (d : List Byte)
  /-- LOOKUP, format K: CODE = w[15:0] (R128). -/
  | lookup (code : Half)
  /-- DISPATCH, format K: CODE = w[15:0], the payload (R129). -/
  | dispatch (code : Half) (d : List Byte)
deriving DecidableEq, Repr

/-- The data operand a command hands over (R42, R66): empty for the four that take none. -/
def Instr.data : Instr → List Byte
  | .crcClear => []
  | .crcByte _ => []
  | .crcRead => []
  | .checksum d => d
  | .encode _ _ d => d
  | .decode d => d
  | .lookup _ => []
  | .dispatch _ d => d

end Sys2Proof
end

