-- ==== Sys2Proof/Decode.lean ====
section
/-!
DEFINITION. Sys2Proof/Decode.lean: the command decoder and, after it, the encoder, both from the formats and opcodes of
spec/30_encoding.md R63 to R70. Decoding looks at the word, and at whether there is a data operand, alone (R69); it is
total, and what it rejects it rejects by name.
-/

namespace Sys2Proof

/-- The assigned opcodes (R65). -/
inductive Opcode where
  | crcClear | crcByte | crcRead | checksum | encode | decode | lookup | dispatch
deriving DecidableEq, Repr

/-- The five formats (R64). -/
inductive Format where
  | none | byte | header | code | stream
deriving DecidableEq, Repr

/-- Why a command word is illegal (R66 to R68): all three complete with ILLEGAL_COMMAND. -/
inductive Rejection where
  /-- An OPC value that R65 does not assign (R68). -/
  | unassignedOpcode
  /-- A field the format requires to be zero has a bit set (R67). -/
  | reservedBitSet
  /-- A data operand with an opcode that takes none (R66). -/
  | unexpectedData
deriving DecidableEq, Repr

/-- OPC of an opcode (R65). -/
def Opcode.value : Opcode → Byte
  | .crcClear => 0x01#8
  | .crcByte => 0x02#8
  | .crcRead => 0x03#8
  | .checksum => 0x04#8
  | .encode => 0x10#8
  | .decode => 0x20#8
  | .lookup => 0x30#8
  | .dispatch => 0x31#8

/-- The opcode an OPC byte selects; `none` for an illegal one (R68). -/
def Opcode.ofValue? (b : Byte) : Option Opcode :=
  match b.toNat with
  | 0x01 => some .crcClear
  | 0x02 => some .crcByte
  | 0x03 => some .crcRead
  | 0x04 => some .checksum
  | 0x10 => some .encode
  | 0x20 => some .decode
  | 0x30 => some .lookup
  | 0x31 => some .dispatch
  | _ => none

/-- The format of an opcode (R65). -/
def Opcode.format : Opcode → Format
  | .crcClear => .none
  | .crcByte => .byte
  | .crcRead => .none
  | .checksum => .stream
  | .encode => .header
  | .decode => .stream
  | .lookup => .code
  | .dispatch => .code

/-- The bits of the word a format requires to be zero (R67). -/
def Format.reservedMask : Format → CommandWord
  | .none => 0x00FFFFFF#32
  | .byte => 0x00FFFF00#32
  | .header => 0x00000000#32
  | .code => 0x00FF0000#32
  | .stream => 0x00FFFFFF#32

/-- Whether an opcode takes a data operand (R66). -/
def Opcode.takesData : Opcode → Bool
  | .crcClear => false
  | .crcByte => false
  | .crcRead => false
  | .checksum => true
  | .encode => true
  | .decode => true
  | .lookup => false
  | .dispatch => true

/-- `OPC = w[31:24]` (R63). -/
def fieldOpc (w : CommandWord) : Byte := w.extractLsb' 24 8

/-- `ADDR = w[23:16]` (R70). -/
def fieldAddr (w : CommandWord) : Byte := w.extractLsb' 16 8

/-- `CODE = w[15:0]` (R70). -/
def fieldCode (w : CommandWord) : Half := w.extractLsb' 0 16

/-- `BYTE = w[7:0]` (R70). -/
def fieldByte (w : CommandWord) : Byte := w.extractLsb' 0 8

/-- Operand assembly (R70): no field is sign-extended, scaled or shifted. -/
def Opcode.assemble (op : Opcode) (w : CommandWord) (d : List Byte) : Instr :=
  match op with
  | .crcClear => .crcClear
  | .crcByte => .crcByte (fieldByte w)
  | .crcRead => .crcRead
  | .checksum => .checksum d
  | .encode => .encode (fieldAddr w) (fieldCode w) d
  | .decode => .decode d
  | .lookup => .lookup (fieldCode w)
  | .dispatch => .dispatch (fieldCode w) d

/-- The command a word and its data operand stand for, or why there is none. The three reasons have one effect
(ILLEGAL_COMMAND), so their order here decides a name only. -/
def decode (w : CommandWord) (d : List Byte) : Except Rejection Instr :=
  match Opcode.ofValue? (fieldOpc w) with
  | none => .error .unassignedOpcode
  | some op =>
    if w &&& op.format.reservedMask ≠ 0#32 then .error .reservedBitSet
    else if !op.takesData && !d.isEmpty then .error .unexpectedData
    else .ok (op.assemble w d)

/-- A command word from its four bytes, OPC first (R64). -/
def commandWord (opc b2 b1 b0 : Byte) : CommandWord :=
  opc ++ b2 ++ b1 ++ b0

/-- The opcode of a command (R65). -/
def Instr.opcode : Instr → Opcode
  | .crcClear => .crcClear
  | .crcByte _ => .crcByte
  | .crcRead => .crcRead
  | .checksum _ => .checksum
  | .encode _ _ _ => .encode
  | .decode _ => .decode
  | .lookup _ => .lookup
  | .dispatch _ _ => .dispatch

/-- The command word of a command (R64, R65, R70): OPC, then the format's fields, zero where the format says `0`. -/
def encodeWord : Instr → CommandWord
  | .crcClear => commandWord 0x01#8 0#8 0#8 0#8
  | .crcByte b => commandWord 0x02#8 0#8 0#8 b
  | .crcRead => commandWord 0x03#8 0#8 0#8 0#8
  | .checksum _ => commandWord 0x04#8 0#8 0#8 0#8
  | .encode addr code _ => commandWord 0x10#8 addr (code.extractLsb' 8 8) (code.extractLsb' 0 8)
  | .decode _ => commandWord 0x20#8 0#8 0#8 0#8
  | .lookup code => commandWord 0x30#8 0#8 (code.extractLsb' 8 8) (code.extractLsb' 0 8)
  | .dispatch code _ => commandWord 0x31#8 0#8 (code.extractLsb' 8 8) (code.extractLsb' 0 8)

/-- What the host hands over for a command: its word, and beside the word its data operand (R63, R71). -/
def encode (i : Instr) : CommandWord × List Byte :=
  (encodeWord i, i.data)

/-- The command this decoder reads from `nbits` bits of value `w`, bit 0 the least significant bit of the word, with no
data operand (`|D|` is passed beside the word and is not encoded in it, R71). A command is exactly one 32-bit word, so
more bits than 32 are no command; of fewer, the bits above `nbits` are zero. -/
def decodeTableWord (nbits w : Nat) : Option Instr :=
  if nbits ≤ 32 then
    match decode (BitVec.ofNat 32 (w % 2 ^ nbits)) [] with
    | .ok i => some i
    | .error _ => none
  else none

end Sys2Proof
end

