-- ==== Sys2Proof/Config.lean ====
section
/-!
DEFINITION. Sys2Proof/Config.lean: the construction parameters of a block instance (spec/00_scope.md R7 to R9,
spec/10_state.md R36, spec/42_catalog_dispatch.md R125): `CATALOG`, `PAD_BYTES` and `DATA_CAP`. They are OPEN in the
spec, so they are DATA of the instance here and no value of theirs is built into a meaning; an instance carries them in
`State.params`, which no command changes (notes/assumptions/1.md). The CRC table `T` is fixed by the spec and stands in
Machine/Crc.lean. The block has no free value: the spec leaves no result undefined.
-/

namespace Sys2Proof

/-- The payload kind of a catalog entry (R125). `width`, `div` and `n` are plain numbers: the checks of R126, which
refuse an illegal one, are `Params.wf` (WellFormed.lean). -/
inductive PayloadKind where
  /-- `FIXED(n)`: `n` bytes of text. -/
  | fixed (n : Nat)
  /-- `SCALED(W, div, unit)`: one `W`-byte signed integer, its divisor and its unit. -/
  | scaled (width : Nat) (div : Nat) (unit : String)
deriving DecidableEq, Repr

/-- A catalog entry (R125). -/
structure Entry where
  /-- The command code, `(command_hi << 8) | command_lo`. -/
  code : Half
  /-- The human-readable name. -/
  name : String
  /-- The payload kind. -/
  kind : PayloadKind
deriving DecidableEq, Repr

/-- What construction fixes (R36, R175). -/
structure Params where
  /-- `CATALOG`: the catalog ROM, entry `i` at index `i` (R7, R34). -/
  catalog : List Entry
  /-- `PAD_BYTES`: the bytes stripped from the end of a FixedString payload (R8). -/
  padBytes : List Byte
  /-- `DATA_CAP`: the largest data operand, and the size of the `RES_DATA` buffer (R9). -/
  dataCap : Nat
deriving DecidableEq, Repr

/-- The smallest parameters R175 admits: no catalog entry, NUL the only pad byte, `DATA_CAP` 261. They serve
`State.reset` alone (notes/assumptions/2.md, DESIGN CHOICE): the spec gives no catalog, and a catalog invented here
would be no device's (spec/91_not_in_source.md N3). -/
def Params.smallest : Params :=
  { catalog := [], padBytes := [0x00#8], dataCap := 261 }

end Sys2Proof
end

