-- ==== Sys2Proof/Machine/State.lean ====
section
/-!
DEFINITION. Sys2Proof/Machine/State.lean: the state of one block instance (spec/10_state.md) and the reasons a step can
stop. The block has no addressable memory, no program counter and no general registers (R35, R40): what there is, is
the accumulator, STATUS, the nine result registers, the instance's constants, and, outside the block, the sequence of
actions its host is still to take (R180, R188).
-/

namespace Sys2Proof.Machine

/-- The reasons the machine stops with a fault: NONE. "The block never raises a trap, a machine check or a fault that
stops it; after any status the next command runs normally." (R159). Errors are status codes (R155). -/
inductive Fault where
deriving DecidableEq, Repr

/-- The reasons a step has no meaning. -/
inductive Refusal where
  /-- An instruction that has no meaning yet, by its mnemonic: raised by no arm of `exec` now. SAFE: nothing is claimed
  of such a run. -/
  | notModelled (mnemonic : String)
  /-- The parameters fail a check of R126 or R175: "no block instance exists for it and the model refuses it" (R126,
  R171; spec/93_implementation_defined.md I2). Raised by `construct` and by `act`, hence by `step`. SAFE: no such
  instance exists. -/
  | noBlockInstance
deriving DecidableEq, Repr

/-- The result registers (R22 to R30). They are one record because every command resets all of them together before it
writes its own (R32). -/
structure Results where
  /-- `RES_ADDR`, 8 bits: a frame's address (R22). -/
  addr : Byte
  /-- `RES_CMD`, 16 bits: a command code (R23). -/
  cmd : Half
  /-- `RES_LEN`, 8 bits: a length (R24). -/
  len : Byte
  /-- `RES_CRC`, 16 bits: a checksum (R25). -/
  crc : Half
  /-- `RES_DATA`, 0 to `DATA_CAP` bytes, first byte first (R26). -/
  data : List Byte
  /-- `RES_KIND`, 2 bits: 0 NONE, 1 STRING, 2 SCALED, 3 reserved (R27). -/
  kind : BitVec 2
  /-- `RES_IDX`, 8 bits: a catalog index (R28). -/
  idx : Byte
  /-- `RES_INT`, 32 bits, two's complement (R29). -/
  int : BitVec 32
  /-- `RES_DIV`, 16 bits, unsigned; 0 means no divisor (R30). -/
  div : Half
deriving DecidableEq, Repr

/-- The reset value of every result register (R22 to R30, R176). -/
def Results.reset : Results :=
  { addr := 0x00#8, cmd := 0x0000#16, len := 0x00#8, crc := 0x0000#16, data := [],
    kind := 0#2, idx := 0x00#8, int := 0#32, div := 0x0000#16 }

/-- What the host of an instance does to it: issue one command (R180), or apply the reset input between two commands
(R176). -/
inductive HostAction where
  /-- A command word and its data operand `D` (R63). -/
  | command (w : CommandWord) (d : List Byte)
  /-- The reset input. -/
  | reset
deriving DecidableEq, Repr

/-- One block instance, and the actions its host is still to take. -/
structure State where
  /-- `CATALOG`, `PAD_BYTES` and `DATA_CAP`: the instance's constants, which no command and no reset changes
  (R34, R36, R177; notes/assumptions/1.md). -/
  params : Params
  /-- `CRC`, the running CRC accumulator (R20). -/
  crc : Half
  /-- `STATUS`, the status code of the most recent command (R21). -/
  status : Byte
  /-- The result registers (R22 to R30). -/
  res : Results
  /-- The sequence of actions the host will take, the next one first. It is the HOST's, not the block's, which has no
  queue (R180, R188; notes/assumptions/3.md). -/
  script : List HostAction
deriving DecidableEq, Repr

/-- The instance with parameters `p`, right after the reset at its construction (R176), its host not yet acting. -/
def State.resetWith (p : Params) : State :=
  { params := p, crc := 0x0000#16, status := 0x00#8, res := Results.reset, script := [] }

/-- The machine right after reset: every register at the value R176 gives it. The parameters, which the spec leaves OPEN,
are the smallest that R175 admits (notes/assumptions/2.md). -/
def State.reset : State := State.resetWith Params.smallest

end Sys2Proof.Machine
end

