-- ==== Sys2Proof/Machine/Flags.lean ====
section
/-!
DEFINITION. Sys2Proof/Machine/Flags.lean: the status codes and their classes (spec/60_exceptions.md R156, R158). STATUS
is the block's only flag or condition state; there is no carry, zero or other arithmetic flag (R21).
-/

namespace Sys2Proof.Machine

/-- The status a command ends with (R156). -/
inductive Status where
  | ok | truncated | checksumMismatch | unknownCommand | lengthMismatch | oversize | illegalCommand
deriving DecidableEq, Repr

/-- The code of a status, as `STATUS` holds it (R156). -/
def Status.code : Status → Byte
  | .ok => 0x00#8
  | .truncated => 0x01#8
  | .checksumMismatch => 0x02#8
  | .unknownCommand => 0x03#8
  | .lengthMismatch => 0x04#8
  | .oversize => 0x05#8
  | .illegalCommand => 0x06#8

/-- The status a `STATUS` value stands for; codes 0x07 to 0xFF are reserved and never written (R156). -/
def Status.ofCode? (b : Byte) : Option Status :=
  match b.toNat with
  | 0x00 => some .ok
  | 0x01 => some .truncated
  | 0x02 => some .checksumMismatch
  | 0x03 => some .unknownCommand
  | 0x04 => some .lengthMismatch
  | 0x05 => some .oversize
  | 0x06 => some .illegalCommand
  | _ => none

/-- The classes of R158: information for the host; the block treats all codes alike. -/
inductive StatusClass where
  | retryable | soft | usage
deriving DecidableEq, Repr

/-- The class of a status (R156, R158); OK has none. -/
def Status.class? : Status → Option StatusClass
  | .ok => none
  | .truncated => some .retryable
  | .checksumMismatch => some .retryable
  | .unknownCommand => some .soft
  | .lengthMismatch => some .soft
  | .oversize => some .usage
  | .illegalCommand => some .usage

/-- The codes `RES_KIND` takes (R27). -/
def kindNone : BitVec 2 := 0#2

/-- `RES_KIND` of a FixedString schema or value (R27). -/
def kindString : BitVec 2 := 1#2

/-- `RES_KIND` of a Scaled schema or value (R27). -/
def kindScaled : BitVec 2 := 2#2

end Sys2Proof.Machine
end

