-- ==== Sys2Proof/Machine/Catalog.lean ====
section
/-!
DEFINITION. Sys2Proof/Machine/Catalog.lean: reading the catalog ROM (spec/10_state.md R34; spec/42_catalog_dispatch.md
R125, R127).
-/

namespace Sys2Proof.Machine

/-- `lookup(code)` (R127): the index of the entry with that code, or `none`. The first such index is taken; in a
well-formed catalog there is at most one. -/
def lookupIndex (cat : List Entry) (code : Half) : Option Nat :=
  cat.findIdx? (fun e => e.code == code)

/-- `lookup(code)` and, where it gives an index `i`, the entry `CATALOG[i]` (R128, R129). -/
def lookupEntry (cat : List Entry) (code : Half) : Option (Nat × Entry) :=
  match lookupIndex cat code with
  | none => none
  | some i => cat[i]?.map (fun e => (i, e))

/-- The value `RES_IDX` takes for an entry index (R28). -/
def indexByte (i : Nat) : Byte := BitVec.ofNat 8 i

/-- The payload length of a schema: `n` of `FIXED(n)`, `W` of a Scaled one (R24). -/
def schemaLength : PayloadKind → Nat
  | .fixed n => n
  | .scaled width _ _ => width

/-- `RES_KIND` of a schema (R27). -/
def schemaKind : PayloadKind → BitVec 2
  | .fixed _ => kindString
  | .scaled _ _ _ => kindScaled

/-- `unit(e)` (R125): the unit of a Scaled entry, the empty string of a FixedString one. -/
def entryUnit (e : Entry) : String :=
  match e.kind with
  | .fixed _ => ""
  | .scaled _ _ unit => unit

end Sys2Proof.Machine
end

