-- ==== Sys2Proof/Machine/Ops.lean ====
section
/-!
DEFINITION. Sys2Proof/Machine/Ops.lean: what every command does to the registers (spec/00_scope.md R14, R15;
spec/10_state.md R32; spec/60_exceptions.md R155). The block has no trap: an error ends the command with a status code,
and `raiseWith` is the one operation that reports it. Nothing is saved, no mode changes and there is nothing to return
from (R155, R163).
-/

namespace Sys2Proof.Machine

/-- What a step of this machine answers. -/
abbrev Outcome := Host.Outcome State Fault Refusal

/-- `reset_results()` (R15, R32): every result register takes its reset value; `CRC` is no result register. -/
def resetResults (s : State) : State := { s with res := Results.reset }

/-- Write `CRC` (R20). -/
def writeCrc (c : Half) (s : State) : State := { s with crc := c }

/-- Write the result registers. -/
def writeResults (r : Results) (s : State) : State := { s with res := r }

/-- Write `STATUS` (R21). -/
def writeStatus (e : Status) (s : State) : State := { s with status := e.code }

/-- `finish` (R14): STATUS <- OK, and the command ends with the result registers it wrote. `r` is those registers, every
other one at its reset value (R15). -/
def finishWith (r : Results) (s : State) : Outcome :=
  .next (writeStatus .ok (writeResults r (resetResults s)))

/-- `raise e with r` (R14): every result register takes its reset value, then the registers the form lists are written
(`r`: those, every other one at its reset value), then STATUS <- code(e). `CRC` keeps its value. -/
def raiseWith (e : Status) (r : Results) (s : State) : Outcome :=
  .next (writeStatus e (writeResults r (resetResults s)))

/-- `raise e` (R14): as `raiseWith`, with no result register listed. -/
def raise (e : Status) (s : State) : Outcome := raiseWith e Results.reset s

/-- An illegal command word completes with ILLEGAL_COMMAND and has no other effect (R66 to R68, R157). -/
def execIllegal (s : State) : Outcome := raise .illegalCommand s

end Sys2Proof.Machine
end

