-- ==== Sys2Proof/Machine/Operands.lean ====
section
/-!
DEFINITION. Sys2Proof/Machine/Operands.lean: reading a data operand and the byte orders (spec/20_memory.md R42 to R48).
Every access is one byte wide (R48); a wider field is put together from bytes here and nowhere else. The fields of the
command word itself are Decode.lean's.
-/

namespace Sys2Proof.Machine

/-- `D[i]` (R42). A command reads it only for `i < |D|`; every use below stands behind that check. -/
def byteAt (d : List Byte) (i : Nat) : Byte := d.getD i 0x00#8

/-- The subsequence `d[i..j)` (R11). -/
def slice (d : List Byte) (i j : Nat) : List Byte := (d.drop i).take (j - i)

/-- Bits [15:8] of a 16-bit value. -/
def hiByte (v : Half) : Byte := v.extractLsb' 8 8

/-- Bits [7:0] of a 16-bit value. -/
def loByte (v : Half) : Byte := v.extractLsb' 0 8

/-- A 16-bit value from its two bytes: `(zext_16(hi) << 8) | zext_16(lo)` (R58, R103). -/
def ofBytes (hi lo : Byte) : Half := (hi.setWidth 16 <<< 8) ||| lo.setWidth 16

/-- A command code on the wire: high byte first (R43). -/
def codeBytes (code : Half) : List Byte := [hiByte code, loByte code]

/-- A checksum on the wire: low byte first (R43). -/
def checksumBytes (c : Half) : List Byte := [loByte c, hiByte c]

/-- The length of a byte sequence as an 8-bit length field, for sequences of at most 255 bytes (R59). -/
def lengthByte (s : List Byte) : Byte := BitVec.ofNat 8 s.length

/-- Whether a data operand is longer than `DATA_CAP` (R42, R157). -/
def overCap (d : List Byte) (s : State) : Bool := s.params.dataCap < d.length

end Sys2Proof.Machine
end

