-- ==== Sys2Proof/Machine/Payload.lean ====
section
/-!
DEFINITION. Sys2Proof/Machine/Payload.lean: the fixed-string extractor and the scaled-integer parser
(spec/42_catalog_dispatch.md R131, R133).
-/

namespace Sys2Proof.Machine

/-- The trim function (R131): the longest run at the end whose every byte is in `PAD_BYTES` is removed, and nothing else. -/
def trim (pads : List Byte) (s : List Byte) : List Byte :=
  (s.reverse.dropWhile (fun b => pads.contains b)).reverse

/-- The unsigned number of a big-endian byte sequence, `D[0]` the most significant byte (R44, R133). -/
def beUnsigned (d : List Byte) : Nat := d.foldl (fun u b => u * 256 + b.toNat) 0

/-- Integer assembly (R133): the `width` bytes as one big-endian two's-complement number, sign-extended to 32 bits. -/
def beSigned (d : List Byte) (width : Nat) : BitVec 32 :=
  (BitVec.ofNat (8 * width) (beUnsigned d)).signExtend 32

end Sys2Proof.Machine
end

