-- ==== Sys2Proof/Machine/CatalogDispatch.lean ====
section
/-!
DEFINITION. Sys2Proof/Machine/CatalogDispatch.lean: LOOKUP and DISPATCH (spec/42_catalog_dispatch.md R128, R129).
-/

namespace Sys2Proof.Machine

/-- The result registers of a command that was given a code and found no entry for it: `RES_CMD` (R23, R157). -/
def codeResults (code : Half) : Results := { Results.reset with cmd := code }

/-- `RES_CMD` and `RES_IDX` of a code that has the entry `i` (R128, R129, R157). -/
def entryResults (code : Half) (i : Nat) : Results :=
  { Results.reset with cmd := code, idx := indexByte i }

/-- The result registers LOOKUP writes for a schema (R128). -/
def schemaResults (code : Half) (i : Nat) (k : PayloadKind) : Results :=
  match k with
  | .fixed n => { entryResults code i with kind := kindString, len := BitVec.ofNat 8 n }
  | .scaled width div _ =>
    { entryResults code i with kind := kindScaled, len := BitVec.ofNat 8 width, div := BitVec.ofNat 16 div }

/-- LOOKUP (R128). -/
def execLookup (code : Half) (s : State) : Outcome :=
  match lookupEntry s.params.catalog code with
  | none => raiseWith .unknownCommand (codeResults code) s
  | some (i, e) => finishWith (schemaResults code i e.kind) s

/-- The result registers DISPATCH writes for a FixedString payload (R129 to R131). -/
def stringResults (code : Half) (i : Nat) (text : List Byte) : Results :=
  { entryResults code i with kind := kindString, data := text, len := lengthByte text }

/-- The result registers DISPATCH writes for a Scaled payload (R129, R132, R133). -/
def scaledResults (code : Half) (i : Nat) (width div : Nat) (d : List Byte) : Results :=
  { entryResults code i with
    kind := kindScaled
    int := beSigned d width
    div := BitVec.ofNat 16 div
    len := BitVec.ofNat 8 width }

/-- The result registers of a payload of the schema's length (R129). -/
def payloadResults (pads : List Byte) (code : Half) (i : Nat) (k : PayloadKind) (d : List Byte) : Results :=
  match k with
  | .fixed _ => stringResults code i (trim pads d)
  | .scaled width div _ => scaledResults code i width div d

/-- DISPATCH (R129): an unknown code before a length mismatch (R161). -/
def execDispatch (code : Half) (d : List Byte) (s : State) : Outcome :=
  if overCap d s then raise .oversize s
  else
    match lookupEntry s.params.catalog code with
    | none => raiseWith .unknownCommand (codeResults code) s
    | some (i, e) =>
      if d.length ≠ schemaLength e.kind then raiseWith .lengthMismatch (entryResults code i) s
      else finishWith (payloadResults s.params.padBytes code i e.kind d) s

end Sys2Proof.Machine
end

