-- ==== Sys2Proof/Machine/ChecksumEngine.lean ====
section
/-!
DEFINITION. Sys2Proof/Machine/ChecksumEngine.lean: CRC_CLEAR, CRC_BYTE, CRC_READ and CHECKSUM (spec/40_checksum.md R84
to R87). An illegal word, or a data operand with one of the first three, never reaches a meaning: the decoder rejects it
and the command ends in `execIllegal` (R66, R67, R161).
-/

namespace Sys2Proof.Machine

/-- The result registers of the CRC commands: `RES_CRC` alone (R25). -/
def crcResults (c : Half) : Results := { Results.reset with crc := c }

/-- CRC_CLEAR (R84). -/
def execCrcClear (s : State) : Outcome :=
  finishWith (crcResults 0x0000#16) (writeCrc 0x0000#16 s)

/-- CRC_BYTE (R85). -/
def execCrcByte (byte : Byte) (s : State) : Outcome :=
  let c := crcStep s.crc byte
  finishWith (crcResults c) (writeCrc c s)

/-- CRC_READ (R86): `CRC` itself is not changed. -/
def execCrcRead (s : State) : Outcome :=
  finishWith (crcResults s.crc) s

/-- CHECKSUM (R87): starts from 0x0000, whatever `CRC` held; an oversize operand leaves `CRC` as it was. -/
def execChecksum (d : List Byte) (s : State) : Outcome :=
  if overCap d s then raise .oversize s
  else
    let c := checksum d
    finishWith (crcResults c) (writeCrc c s)

end Sys2Proof.Machine
end

