-- ==== Sys2Proof/Machine/Frame.lean ====
section
/-!
DEFINITION. Sys2Proof/Machine/Frame.lean: the wire frame (spec/30_encoding.md R55 to R62), how it is built
(spec/41_frame_codec.md R101) and how received bytes are read as one (R103).
-/

namespace Sys2Proof.Machine

/-- The prefix of a frame: ADDR, CMD_HI, CMD_LO, LEN and the payload (R55, R101). -/
def framePrefix (addr : Byte) (code : Half) (payload : List Byte) : List Byte :=
  addr :: (codeBytes code ++ (lengthByte payload :: payload))

/-- The frame: its prefix, then the prefix's checksum, low byte first (R55, R56, R101). -/
def buildFrame (addr : Byte) (code : Half) (payload : List Byte) : List Byte :=
  framePrefix addr code payload ++ checksumBytes (checksum (framePrefix addr code payload))

/-- The fields of a received frame (R55). -/
structure Frame where
  addr : Byte
  code : Half
  len : Byte
  payload : List Byte
  crc : Half
deriving DecidableEq, Repr

/-- What the frame layer makes of received bytes, before the catalog is asked (R103). -/
inductive FrameResult where
  | truncated
  | checksumMismatch
  | valid (f : Frame)
deriving DecidableEq, Repr

/-- `L`, the payload length the received bytes declare: `D[3]` (R103). -/
def declaredLength (d : List Byte) : Nat := (byteAt d 3).toNat

/-- The received checksum, at offsets `4+L` and `5+L`, low byte first (R103). -/
def receivedChecksum (d : List Byte) : Half :=
  ofBytes (byteAt d (5 + declaredLength d)) (byteAt d (4 + declaredLength d))

/-- The prefix of the received frame, `D[0..4+L)` (R103). -/
def receivedPrefix (d : List Byte) : List Byte := slice d 0 (4 + declaredLength d)

/-- The fields read from the received bytes (R103). Bytes from offset `6+L` on are read by nothing. -/
def receivedFrame (d : List Byte) : Frame :=
  { addr := byteAt d 0
    code := ofBytes (byteAt d 1) (byteAt d 2)
    len := byteAt d 3
    payload := slice d 4 (4 + declaredLength d)
    crc := receivedChecksum d }

/-- The frame layer's checks, in the order of R103 and R161: with fewer than 4 bytes there is no length byte yet; then
the declared length plus 6 bytes of overhead; then the checksum. The frame starts at `D[0]` (R109). -/
def readFrame (d : List Byte) : FrameResult :=
  if d.length < 4 then .truncated
  else if d.length < declaredLength d + 6 then .truncated
  else if receivedChecksum d ≠ checksum (receivedPrefix d) then .checksumMismatch
  else .valid (receivedFrame d)

end Sys2Proof.Machine
end

