-- ==== Sys2Proof/Machine/FrameCodec.lean ====
section
/-!
DEFINITION. Sys2Proof/Machine/FrameCodec.lean: ENCODE and DECODE (spec/41_frame_codec.md R101, R103). Neither reads nor
writes the accumulator `CRC` (R100).
-/

namespace Sys2Proof.Machine

/-- The result registers ENCODE writes (R101). -/
def encodeResults (addr : Byte) (code : Half) (d : List Byte) : Results :=
  { Results.reset with
    data := buildFrame addr code d
    addr := addr
    cmd := code
    len := lengthByte d
    crc := checksum (framePrefix addr code d) }

/-- ENCODE (R101): any code is framed, known or not; more than 255 bytes cannot be. -/
def execEncode (addr : Byte) (code : Half) (d : List Byte) (s : State) : Outcome :=
  if overCap d s || 255 < d.length then raise .oversize s
  else finishWith (encodeResults addr code d) s

/-- What DECODE exposes of a checksum-valid frame with an unknown code: the header, not the payload (R103, R157). -/
def headerResults (f : Frame) : Results :=
  { Results.reset with addr := f.addr, cmd := f.code, len := f.len, crc := f.crc }

/-- What DECODE exposes of an accepted frame: header, payload and catalog index (R103). -/
def frameResults (f : Frame) (i : Nat) : Results :=
  { headerResults f with data := f.payload, idx := indexByte i }

/-- DECODE (R103). It compares neither the address nor the code with anything expected, nor the payload's length with
the schema (R107). -/
def execDecode (d : List Byte) (s : State) : Outcome :=
  if overCap d s then raise .oversize s
  else
    match readFrame d with
    | .truncated => raise .truncated s
    | .checksumMismatch => raise .checksumMismatch s
    | .valid f =>
      match lookupIndex s.params.catalog f.code with
      | none => raiseWith .unknownCommand (headerResults f) s
      | some i => finishWith (frameResults f i) s

end Sys2Proof.Machine
end

