-- ==== Sys2Proof/Machine/Dispatch.lean ====
section
/-!
DEFINITION. Sys2Proof/Machine/Dispatch.lean: one arm per constructor of Instr, each a direct call of its meaning.
-/

namespace Sys2Proof.Machine

def exec (i : Instr) (s : State) : Host.Outcome State Fault Refusal :=
  match i with
  | .crcClear => Sys2Proof.Machine.execCrcClear s
  | .crcByte byte => Sys2Proof.Machine.execCrcByte byte s
  | .crcRead => Sys2Proof.Machine.execCrcRead s
  | .checksum d => Sys2Proof.Machine.execChecksum d s
  | .encode addr code d => Sys2Proof.Machine.execEncode addr code d s
  | .decode d => Sys2Proof.Machine.execDecode d s
  | .lookup code => Sys2Proof.Machine.execLookup code s
  | .dispatch code d => Sys2Proof.Machine.execDispatch code d s

end Sys2Proof.Machine
end

