-- ==== Sys2Proof/WellFormed.lean ====
section
/-!
DEFINITION. Sys2Proof/WellFormed.lean: which parameters make a block instance (spec/42_catalog_dispatch.md R126,
spec/70_reset_and_hazards.md R175) and which commands an assembler lets through (spec/30_encoding.md R72).
-/

namespace Sys2Proof

/-- The `divisor`, `width` and `length` checks of R126 on one entry. -/
def PayloadKind.wf : PayloadKind → Bool
  | .fixed n => n ≤ 255
  | .scaled width div _ => 1 ≤ div && div ≤ 65535 && (width == 2 || width == 4)

/-- The `unique` check of R126: no two entries have the same code. -/
def Catalog.codesDistinct : List Entry → Bool
  | [] => true
  | e :: rest => rest.all (fun e' => e'.code != e.code) && Catalog.codesDistinct rest

/-- All five checks of R126: `unique`, `divisor`, `width`, `length` and `size`. -/
def Catalog.wf (cat : List Entry) : Bool :=
  Catalog.codesDistinct cat && cat.all (fun e => e.kind.wf) && cat.length ≤ 256

/-- R175: an instance exists only when `CATALOG` passes R126, `PAD_BYTES` contains 0x00 and `DATA_CAP` >= 261. -/
def Params.wf (p : Params) : Bool :=
  Catalog.wf p.catalog && p.padBytes.contains 0x00#8 && 261 ≤ p.dataCap

/-- A command an assembler lets through (R72): its byte list is no longer than `DATA_CAP`. The other refusals of R72
(a number too wide for its field, a list where none is taken) cannot be written down in `Instr`; they are
`assemble`'s (Machine/Assembler.lean). A longer operand still runs, and ends with OVERSIZE. -/
def Instr.wf (dataCap : Nat) (i : Instr) : Bool :=
  i.data.length ≤ dataCap

end Sys2Proof
end

