-- ==== Sys2Proof/Machine/Issue.lean ====
section
/-!
DEFINITION. Sys2Proof/Machine/Issue.lean: construction, reset, and issuing one command (spec/70_reset_and_hazards.md
R175 to R180).
-/

namespace Sys2Proof.Machine

/-- Construction (R175): the instance with these parameters right after its first reset; a defective catalog, pad set or
buffer size is refused, and no instance exists for it (R126, R171). -/
def construct (p : Params) : Outcome :=
  if p.wf then .next (State.resetWith p) else .refused .noBlockInstance

/-- The reset input (R176, R177): every register takes its reset value; the instance's constants stay. -/
def applyReset (s : State) : State :=
  { State.resetWith s.params with script := s.script }

/-- Issue one command (R63): an illegal word completes with ILLEGAL_COMMAND before anything else is looked at
(R66 to R68, R161), any other runs. -/
def issue (w : CommandWord) (d : List Byte) (s : State) : Outcome :=
  match decode w d with
  | .ok i => exec i s
  | .error _ => execIllegal s

/-- One action of the host on an instance (R176, R180). -/
def perform (a : HostAction) (s : State) : Outcome :=
  match a with
  | .command w d => issue w d s
  | .reset => .next (applyReset s)

/-- One action of the host, refused where the parameters make no instance (R126, R171, R175). -/
def act (a : HostAction) (s : State) : Outcome :=
  if s.params.wf then perform a s else .refused .noBlockInstance

/-- The action by which a host issues a command. -/
def HostAction.ofInstr (i : Instr) : HostAction :=
  .command (encodeWord i) i.data

end Sys2Proof.Machine
end

