-- ==== Sys2Proof/Machine/Step.lean ====
section
/-!
DEFINITION. Sys2Proof/Machine/Step.lean: one step of the machine: the host's next action, whole (spec/20_memory.md R49,
R51; spec/70_reset_and_hazards.md R180, R188).
-/

namespace Sys2Proof.Machine

/-- One step: the instance takes the host's next action, and one alone (R180). With no action left the run has ended
(R188) and the block keeps its registers, which "last until the next command" (R181; notes/assumptions/4.md).
Parameters that make no instance are refused (R126, R171). -/
def step (s : State) : Host.Outcome State Fault Refusal :=
  match s.script with
  | [] => if s.params.wf then .next s else .refused .noBlockInstance
  | a :: rest => act a { s with script := rest }

/-- `s` with the command whose word has the bits `w` (the bits above `nbits` zero), and with no data operand, as the
host's NEXT action: the block fetches nothing, its commands are handed to it (R35, R180; notes/assumptions/3.md). -/
def State.withFetchWord (s : State) (nbits w : Nat) : State :=
  { s with script := .command (BitVec.ofNat 32 (w % 2 ^ nbits)) [] :: s.script }

end Sys2Proof.Machine
end

