-- ==== Sys2Proof/Machine/Assembler.lean ====
section
/-!
DEFINITION. Sys2Proof/Machine/Assembler.lean: the assembler syntax and the two pseudo-commands (spec/30_encoding.md R72
to R74). It has no effect on the block (spec/92_eei_decisions.md D35): it is how a host writes its sequence of commands.
Blanks, upper and lower case hexadecimal digits and what else R72 leaves open: notes/assumptions/6.md.
-/

namespace Sys2Proof.Machine

/-- The names of R72, then those of R73 and R74. -/
inductive AsmName where
  | crcClear | crcByte | crcRead | crcSum | frameEncode | frameDecode | catLookup | catDispatch
  | frameRequest | crcFeed
deriving DecidableEq, Repr

/-- One line: a name, its numbers, and its byte list where it has one. A list, where there is one, stands last. -/
structure AsmLine where
  name : AsmName
  numbers : List Nat
  bytes : Option (List Nat)
deriving DecidableEq, Repr

/-- A byte operand; above 0xFF it is refused (R72). -/
def asmByte (n : Nat) : Option Byte := if n ≤ 0xFF then some (BitVec.ofNat 8 n) else none

/-- A code operand; above 0xFFFF it is refused (R72). -/
def asmCode (n : Nat) : Option Half := if n ≤ 0xFFFF then some (BitVec.ofNat 16 n) else none

/-- The bytes of a list, each at most 0xFF. -/
def asmBytes : List Nat → Option (List Byte)
  | [] => some []
  | n :: rest =>
    match asmByte n, asmBytes rest with
    | some b, some bs => some (b :: bs)
    | _, _ => none

/-- A list operand; longer than `DATA_CAP` it is refused (R72). -/
def asmList (dataCap : Nat) (ns : List Nat) : Option (List Byte) :=
  if ns.length ≤ dataCap then asmBytes ns else none

/-- The commands a line stands for, in order; `none` where the assembler refuses it (R72): an operand out of range, a list
longer than `DATA_CAP`, a list given to a command that takes none, a missing or a surplus operand. `frame.request` is
ENCODE with the empty payload (R73); `crc.feed` is one CRC_BYTE for each byte, and for `[]` no command (R74). R72 bounds
every list by `DATA_CAP`, the list of `crc.feed` with the others (notes/assumptions/6.md). -/
def assemble (dataCap : Nat) (line : AsmLine) : Option (List Instr) :=
  match line.name, line.numbers, line.bytes with
  | .crcClear, [], none => some [.crcClear]
  | .crcByte, [n], none => (asmByte n).map fun b => [.crcByte b]
  | .crcRead, [], none => some [.crcRead]
  | .crcSum, [], some ns => (asmList dataCap ns).map fun d => [.checksum d]
  | .frameEncode, [a, c], some ns =>
    match asmByte a, asmCode c, asmList dataCap ns with
    | some addr, some code, some d => some [.encode addr code d]
    | _, _, _ => none
  | .frameDecode, [], some ns => (asmList dataCap ns).map fun d => [.decode d]
  | .catLookup, [c], none => (asmCode c).map fun code => [.lookup code]
  | .catDispatch, [c], some ns =>
    match asmCode c, asmList dataCap ns with
    | some code, some d => some [.dispatch code d]
    | _, _ => none
  | .frameRequest, [a, c], none =>
    match asmByte a, asmCode c with
    | some addr, some code => some [.encode addr code []]
    | _, _ => none
  | .crcFeed, [], some ns => (asmList dataCap ns).map fun d => d.map Instr.crcByte
  | _, _, _ => none

/-- The lexical units of a line. -/
inductive AsmToken where
  | word (chars : List Char)
  | comma | openList | closeList
deriving DecidableEq, Repr

/-- Whether a character can stand in a name or a number. -/
def asmWordChar (c : Char) : Bool := c.isAlphanum || c == '.'

/-- Put the word read so far, if any, before the tokens that follow. -/
def asmFlush (acc : List Char) (rest : List AsmToken) : List AsmToken :=
  if acc.isEmpty then rest else .word acc.reverse :: rest

/-- The tokens of a line, `acc` the characters (the last first) of the word being read; `none` at any other character. -/
def asmTokens (acc : List Char) : List Char → Option (List AsmToken)
  | [] => some (asmFlush acc [])
  | c :: rest =>
    if asmWordChar c then asmTokens (c :: acc) rest
    else if c == ' ' then (asmTokens [] rest).map (asmFlush acc)
    else if c == ',' then (asmTokens [] rest).map fun ts => asmFlush acc (.comma :: ts)
    else if c == '[' then (asmTokens [] rest).map fun ts => asmFlush acc (.openList :: ts)
    else if c == ']' then (asmTokens [] rest).map fun ts => asmFlush acc (.closeList :: ts)
    else none

/-- The value of a digit in a base of 10 or 16. -/
def asmDigit (base : Nat) (c : Char) : Option Nat :=
  let v :=
    if '0' ≤ c && c ≤ '9' then c.toNat - '0'.toNat
    else if 'a' ≤ c && c ≤ 'f' then c.toNat - 'a'.toNat + 10
    else if 'A' ≤ c && c ≤ 'F' then c.toNat - 'A'.toNat + 10
    else base
  if v < base then some v else none

/-- The number of a run of digits, continued from `n`. -/
def asmDigits (base : Nat) : Nat → List Char → Option Nat
  | n, [] => some n
  | n, c :: rest =>
    match asmDigit base c with
    | some v => asmDigits base (n * base + v) rest
    | none => none

/-- "Numbers are hexadecimal with `0x` or decimal" (R72). -/
def asmNumber : List Char → Option Nat
  | [] => none
  | '0' :: 'x' :: c :: rest => asmDigits 16 0 (c :: rest)
  | c :: rest => asmDigits 10 0 (c :: rest)

/-- The name a word stands for (R72 to R74). -/
def asmName (cs : List Char) : Option AsmName :=
  if cs = "crc.clear".toList then some .crcClear
  else if cs = "crc.byte".toList then some .crcByte
  else if cs = "crc.read".toList then some .crcRead
  else if cs = "crc.sum".toList then some .crcSum
  else if cs = "frame.encode".toList then some .frameEncode
  else if cs = "frame.decode".toList then some .frameDecode
  else if cs = "cat.lookup".toList then some .catLookup
  else if cs = "cat.dispatch".toList then some .catDispatch
  else if cs = "frame.request".toList then some .frameRequest
  else if cs = "crc.feed".toList then some .crcFeed
  else none

/-- The rest of a byte list after its first number: each further number after a comma, then the bracket that ends the
list, with nothing after it. -/
def asmListTail : List AsmToken → Option (List Nat)
  | [.closeList] => some []
  | .comma :: .word cs :: rest =>
    match asmNumber cs, asmListTail rest with
    | some n, some ns => some (n :: ns)
    | _, _ => none
  | _ => none

/-- A byte list after its opening bracket (R72): `[]` is the empty list. -/
def asmListBody : List AsmToken → Option (List Nat)
  | [.closeList] => some []
  | .word cs :: rest =>
    match asmNumber cs, asmListTail rest with
    | some n, some ns => some (n :: ns)
    | _, _ => none
  | _ => none

/-- The operands after a name: numbers and then at most one byte list, commas between. -/
def asmOperands : List AsmToken → Option (List Nat × Option (List Nat))
  | [] => some ([], none)
  | [.word cs] => (asmNumber cs).map fun n => ([n], none)
  | .openList :: rest => (asmListBody rest).map fun ns => ([], some ns)
  | .word cs :: .comma :: .word cs' :: rest =>
    match asmNumber cs, asmOperands (.word cs' :: rest) with
    | some n, some (ns, l) => some (n :: ns, l)
    | _, _ => none
  | .word cs :: .comma :: .openList :: rest =>
    match asmNumber cs, asmListBody rest with
    | some n, some ns => some ([n], some ns)
    | _, _ => none
  | _ => none

/-- One line of assembler text as a line (R72: one command per line). -/
def parseLine (text : List Char) : Option AsmLine :=
  match asmTokens [] text with
  | some (.word cs :: rest) =>
    match asmName cs, asmOperands rest with
    | some name, some (ns, l) => some { name := name, numbers := ns, bytes := l }
    | _, _ => none
  | _ => none

/-- The commands of one line of assembler text. -/
def assembleText (dataCap : Nat) (text : List Char) : Option (List Instr) :=
  match parseLine text with
  | some line => assemble dataCap line
  | none => none

/-- The actions by which a host issues a sequence of commands, in order (R180). -/
def scriptOf (is : List Instr) : List HostAction := is.map HostAction.ofInstr

end Sys2Proof.Machine
end

