-- ==== Sys2Proof/Machine/HostView.lean ====
section
/-!
DEFINITION. Sys2Proof/Machine/HostView.lean: what a host computes from the registers and the catalog ROM
(spec/10_state.md R31, R34; spec/42_catalog_dispatch.md R134, R135; spec/60_exceptions.md R158). Reading has no side
effect (R50): each is a function of the state and changes nothing.
-/

namespace Sys2Proof.Machine

/-- The host reads entry `i` of the catalog ROM (R34). -/
def readEntry (i : Nat) (s : State) : Option Entry := s.params.catalog[i]?

/-- The status the block reports; `none` for a reserved code, which the block never writes (R156). -/
def readStatus (s : State) : Option Status := Status.ofCode? s.status

/-- The exact value `x / d` of a Scaled result (R134). A divisor of 0 is "no divisor" (R30) and has no value. -/
def value (x : BitVec 32) (d : Half) : Option Rat :=
  if d = 0x0000#16 then none else some (mkRat x.toInt d.toNat)

/-- `num / den` rounded to the nearest integer, ties to even. -/
def roundQuotient (num den : Nat) : Nat :=
  let q := num / den
  let r := num % den
  if den < 2 * r || (2 * r == den && q % 2 == 1) then q + 1 else q

/-- The biased binary64 exponent of `n / d`, for `1 <= n < 2^32` and `1 <= d < 2^16`: 1023 plus the greatest `e` with
`2^e <= n / d`. It lies between 1007 and 1054, so the quotient is always in the normal range. -/
def biasedExponent (n d : Nat) : Nat :=
  if d * 2 ^ n.log2 ≤ n * 2 ^ d.log2 then 1023 + n.log2 - d.log2 else 1022 + n.log2 - d.log2

/-- The binary64 bits, sign bit apart, of `n / d` rounded to nearest, ties to even, on the same ranges: the significand
has 53 bits, and a significand that rounds up to `2^53` carries into the exponent field. -/
def magnitude64 (n d : Nat) : Nat :=
  let e := biasedExponent n d
  e * 2 ^ 52 + (roundQuotient (n * 2 ^ (1075 - e)) d - 2 ^ 52)

/-- `value64(x, d)` as its 64 bits (R134): IEEE 754 binary64, round to nearest, ties to even; 0 gives +0.0. -/
def value64 (x : BitVec 32) (d : Half) : Option (BitVec 64) :=
  if d = 0x0000#16 then none
  else if x.toInt = 0 then some 0#64
  else
    let sign := if x.toInt < 0 then 2 ^ 63 else 0
    some (BitVec.ofNat 64 (sign + magnitude64 x.toInt.natAbs d.toNat))

/-- The rational a binary64 pattern stands for, `none` for an infinity or a NaN: what `value64` is measured against. -/
def ofBinary64 (b : BitVec 64) : Option Rat :=
  let fraction := b.toNat % 2 ^ 52
  let exponent := b.toNat / 2 ^ 52 % 2 ^ 11
  let scaled : Nat := if exponent = 0 then fraction * 2 else (2 ^ 52 + fraction) * 2 ^ exponent
  let signed : Int := if 2 ^ 63 ≤ b.toNat then -(scaled : Int) else scaled
  if exponent = 2047 then none else some (mkRat signed (2 ^ 1075))

/-- The value of a sample: a string, one byte per character, or a number, exact and as binary64 (R17, R134, R135). -/
inductive SampleValue where
  | text (bytes : List Byte)
  | number (exact : Rat) (float64 : BitVec 64)
deriving DecidableEq, Repr

/-- The source's DecodedSample (R17, R135). The timestamp is the host's. -/
structure Sample where
  command : Half
  name : String
  value : SampleValue
  unit : String
  timestamp : Nat
deriving DecidableEq, Repr

/-- The value the result registers of a DISPATCH hold (R135). `RES_KIND` 3 is never written and has none (R27). -/
def sampleValue (r : Results) : Option SampleValue :=
  if r.kind = kindString then some (.text r.data)
  else if r.kind = kindScaled then
    match value r.int r.div, value64 r.int r.div with
    | some v, some b => some (.number v b)
    | _, _ => none
  else none

/-- The sample a host assembles after a DISPATCH with `STATUS = OK` (R135); it brings the device-read time itself. -/
def assembleSample (timestamp : Nat) (s : State) : Option Sample :=
  if s.status = Status.ok.code then
    match readEntry s.res.idx.toNat s, sampleValue s.res with
    | some e, some v =>
      some { command := s.res.cmd, name := e.name, value := v, unit := entryUnit e, timestamp := timestamp }
    | _, _ => none
  else none

end Sys2Proof.Machine
end

