-- ==== Sys2Proof/Machine/Run.lean ====
section
/-!
DEFINITION. Sys2Proof/Machine/Run.lean: what a run of the block shows (spec/70_reset_and_hazards.md R188), and several
block instances side by side (spec/10_state.md R37, spec/20_memory.md R54, spec/60_exceptions.md R168).
-/

namespace Sys2Proof.Machine

/-- Go on with the state an outcome answers; a fault or a refusal stays what it is. -/
def andThen {α β : Type} (o : Host.Outcome α Fault Refusal) (f : α → Host.Outcome β Fault Refusal) :
    Host.Outcome β Fault Refusal :=
  match o with
  | .next a => f a
  | .fault r => .fault r
  | .refused r => .refused r

/-- What the host reads after an action: STATUS and the result registers. After a command R188 says so; after a reset
inside a run it is the model's choice (DESIGN CHOICE, notes/assumptions/19.md). -/
structure Reading where
  status : Byte
  res : Results
deriving DecidableEq, Repr

/-- What a run shows: the readings after each action, and the state at its end (R188 for a run of commands;
notes/assumptions/19.md for one with a reset in it). -/
structure Transcript where
  readings : List Reading
  last : State
deriving DecidableEq, Repr

/-- The host takes the actions one by one, each completing before the next starts (R51, R180), and reads after each.
R188 calls a run a sequence of COMMANDS, each followed by a reading, and does not speak of a reset inside a run, though
R176 lets the host apply one between two commands. DESIGN CHOICE (notes/assumptions/19.md): a reset counts here as an
action of the run and is followed by a reading like any other. -/
def runActions : List HostAction → State → Host.Outcome Transcript Fault Refusal
  | [], s => .next { readings := [], last := s }
  | a :: rest, s =>
    andThen (act a s) fun t =>
      andThen (runActions rest t) fun u =>
        .next { readings := { status := t.status, res := t.res } :: u.readings, last := u.last }

/-- Several instances, each with registers and constants of its own (R37). -/
abbrev Bank := List State

/-- The host of instance `k` takes an action on it; the other instances are not touched, for there are no inter-instance
signals (R168). There is no instance beyond the list. -/
def actAt (k : Nat) (a : HostAction) (bank : Bank) : Host.Outcome Bank Fault Refusal :=
  match bank[k]? with
  | none => .refused .noBlockInstance
  | some s => andThen (act a s) fun t => .next (bank.set k t)

end Sys2Proof.Machine
end

