-- ==== Sys2Proof/Safety.lean ====
section
/-!
DEFINITION. Sys2Proof/Safety.lean: what holds of every state a host can see, and what makes a run safe. Claims use these
words; no meaning does.
-/

namespace Sys2Proof.Machine

/-- What holds of an instance at reset and after every command. -/
structure Inv (s : State) : Prop where
  /-- The parameters make an instance (R175). -/
  params_wf : s.params.wf = true
  /-- STATUS holds one of the seven codes (R156). -/
  status_assigned : s.status.toNat ≤ 6
  /-- `RES_KIND` is never the reserved value 3 (R27). -/
  kind_assigned : s.res.kind ≠ 3#2
  /-- `RES_DATA` fits its buffer (R26). -/
  data_fits : s.res.data.length ≤ s.params.dataCap
  /-- After any status but OK there is no payload, string or number in the result registers (R157). -/
  error_shows_nothing : s.status ≠ Status.ok.code →
    s.res.data = [] ∧ s.res.kind = kindNone ∧ s.res.int = 0#32 ∧ s.res.div = 0x0000#16
  /-- A kind names a schema: the entry at `RES_IDX` is that of the code in `RES_CMD`, and of that kind (R27, R28). -/
  kind_has_entry : s.res.kind ≠ kindNone →
    ∃ e, s.params.catalog[s.res.idx.toNat]? = some e ∧ e.code = s.res.cmd ∧ schemaKind e.kind = s.res.kind
  /-- `RES_DIV = 0` means "no divisor" (R30): a divisor is there exactly with a Scaled schema or value. -/
  divisor_iff_scaled : s.res.div ≠ 0x0000#16 ↔ s.res.kind = kindScaled

/-- A safe run of `k` steps: no fault and no refusal. -/
def SafeRun (k : Nat) (s : State) : Prop := ∃ t, Sys2Proof.core.run k s = .next t

/-- The checks of R126 and R175 in words of their own: distinct codes, legal divisors, widths and lengths, at most 256
entries, NUL a pad byte, room for the longest frame. -/
def LegalParams (p : Params) : Prop :=
  (∀ (i j : Nat) (e e' : Entry), p.catalog[i]? = some e → p.catalog[j]? = some e' → e.code = e'.code → i = j) ∧
  (∀ e ∈ p.catalog, ∀ n, e.kind = .fixed n → n ≤ 255) ∧
  (∀ e ∈ p.catalog, ∀ width div unit, e.kind = .scaled width div unit →
    1 ≤ div ∧ div ≤ 65535 ∧ (width = 2 ∨ width = 4)) ∧
  p.catalog.length ≤ 256 ∧ 0x00#8 ∈ p.padBytes ∧ 261 ≤ p.dataCap

/-- The illegal command words, from R65 to R68 and in numbers, apart from the decoder: an unassigned OPC, a bit of the
format's mask set, or a data operand where the opcode takes none. -/
def illegalWord (w : CommandWord) (d : List Byte) : Bool :=
  match w.toNat / 2 ^ 24 with
  | 0x01 => w &&& 0x00FFFFFF#32 != 0#32 || !d.isEmpty
  | 0x02 => w &&& 0x00FFFF00#32 != 0#32 || !d.isEmpty
  | 0x03 => w &&& 0x00FFFFFF#32 != 0#32 || !d.isEmpty
  | 0x04 => w &&& 0x00FFFFFF#32 != 0#32
  | 0x10 => false
  | 0x20 => w &&& 0x00FFFFFF#32 != 0#32
  | 0x30 => w &&& 0x00FF0000#32 != 0#32 || !d.isEmpty
  | 0x31 => w &&& 0x00FF0000#32 != 0#32
  | _ => true

/-- A valid frame (R55, R56): `6 + L` bytes, `L` the value of byte 3, the last two bytes the checksum of the ones before
them, low byte first. -/
def ValidFrame (f : List Byte) : Prop :=
  f.length = 6 + (f.getD 3 0).toNat ∧
  checksum (f.take (f.length - 2)) = f.getD (f.length - 1) 0 ++ f.getD (f.length - 2) 0

/-- The registers at their reset values, one by one (R176). -/
def RegistersAtReset (s : State) : Prop :=
  s.crc = 0x0000#16 ∧ s.status = 0x00#8 ∧ s.res.addr = 0x00#8 ∧ s.res.cmd = 0x0000#16 ∧ s.res.len = 0x00#8 ∧
  s.res.crc = 0x0000#16 ∧ s.res.data = [] ∧ s.res.kind = 0#2 ∧ s.res.idx = 0x00#8 ∧ s.res.int = 0#32 ∧
  s.res.div = 0x0000#16

end Sys2Proof.Machine
end

