-- ==== Sys2Proof/Certificates/Slice0/Obligations.lean ====
section
/-!
DEFINITION. Sys2Proof/Certificates/Slice0/Obligations.lean: the statements about the codec block, for the provers. Each
docstring names the rule of spec/ it formalises. An answer `.next { s with … }` says the frame too: every field of the
state that is not listed (the constants, the host's script, and `CRC` where it is not listed) is unchanged, and
`Results.reset` has every result register at its reset value (the first statement).
-/

open Sys2Proof Sys2Proof.Machine

/-! ### Construction and reset -/

/-- R176: reset writes every register to the value its rule gives, at construction and whenever the host applies the
reset input; the instance's constants and the rest of the host's actions stay. -/
def Obligations.ResetGivesEveryRegisterItsValue : Prop :=
  (∀ p : Params, p.wf = true → ∃ s, construct p = .next s ∧ s.params = p ∧ RegistersAtReset s) ∧
  (∀ (s : State) (rest : List HostAction), s.params.wf = true → s.script = .reset :: rest →
    ∃ t, step s = .next t ∧ RegistersAtReset t ∧ t.params = s.params ∧ t.script = rest)

/-- R126, R171, R175: construction makes an instance exactly for parameters that pass every check, and the instance then
carries them; for any others construction is refused. -/
def Obligations.OnlyLegalParametersMakeAnInstance : Prop :=
  ∀ p : Params,
    (LegalParams p → ∃ s, construct p = .next s ∧ s.params = p) ∧
    (¬ LegalParams p → construct p = .refused .noBlockInstance)

/-- The invariant holds right after construction, and of `State.reset`. -/
def Obligations.InvAtConstruction : Prop :=
  (∀ p : Params, p.wf = true → Inv (State.resetWith p)) ∧ Inv State.reset

/-- Every step keeps the invariant: STATUS is an assigned code, `RES_KIND` is not 3, `RES_DATA` fits, an error shows no
data, a kind names the catalog entry at `RES_IDX`, and a divisor is there exactly with a Scaled result. -/
def Obligations.EveryStepKeepsInv : Prop :=
  ∀ s t : State, Inv s → step s = .next t → Inv t

/-- R159: "No command can hang or fail to complete": in every state of an instance, whatever status an earlier command
left, a command completes in one step, and the block takes the next one. -/
def Obligations.EveryCommandCompletes : Prop :=
  ∀ (s : State) (w : CommandWord) (d : List Byte) (rest : List HostAction),
    s.params.wf = true → s.script = .command w d :: rest →
    ∃ t, step s = .next t ∧ t.script = rest ∧ t.params.wf = true

/-- From every state of an instance every run is safe, of any length. -/
def Obligations.EveryRunIsSafe : Prop :=
  ∀ (s : State) (k : Nat), s.params.wf = true → SafeRun k s

/-- No step changes the instance's constants (spec/10_state.md section 5 and section 6). -/
def Obligations.StepsKeepTheConstants : Prop :=
  ∀ s t : State, step s = .next t → t.params = s.params

/-! ### Command words -/

/-- A step runs the decoded command: where the host's next action is a word that decodes to `i`, the step is `exec i` on
the state whose script has moved past that action. -/
def Obligations.StepRunsTheDecodedCommand : Prop :=
  ∀ (s : State) (w : CommandWord) (d : List Byte) (rest : List HostAction) (i : Instr),
    s.params.wf = true → s.script = .command w d :: rest → decode w d = .ok i →
    step s = exec i { s with script := rest }

/-- With no action of the host left, the block keeps everything (the model's choice, notes/assumptions/4.md; it rests on
"Results last until the next command", R181). -/
def Obligations.StepWithoutAnActionKeepsEverything : Prop :=
  ∀ s : State, s.params.wf = true → s.script = [] → step s = .next s

/-- Decode and encode agree: every command, with every operand at every value, is read back whole from its word and its
data operand. -/
def Obligations.DecodeOfEncodeIsTheCommand : Prop :=
  ∀ i : Instr, decode (encode i).1 (encode i).2 = .ok i

/-- The other direction: a word that decodes to a command is the word of that command. -/
def Obligations.EncodeOfDecodeIsTheWord : Prop :=
  ∀ (w : CommandWord) (d : List Byte) (i : Instr), decode w d = .ok i → encode i = (w, d)

/-- R65, R66, R67, R68: the decoder rejects exactly the illegal words, and each completes with ILLEGAL_COMMAND: `CRC` is
unchanged and no result register holds anything, whatever the data operand. -/
def Obligations.IllegalWordsCompleteWithIllegalCommand : Prop :=
  ∀ (w : CommandWord) (d : List Byte) (s : State),
    (illegalWord w d = true → issue w d s = .next { s with status := 0x06#8, res := Results.reset }) ∧
    (illegalWord w d = false → ∃ i, decode w d = .ok i ∧ issue w d s = exec i s)

/-- The words of R72's examples decode to the commands they stand for. -/
def Obligations.ExampleWordsDecode : Prop :=
  decode 0x01000000#32 [] = .ok .crcClear ∧
  decode 0x02000013#32 [] = .ok (.crcByte 0x13#8) ∧
  decode 0x03000000#32 [] = .ok .crcRead ∧
  decode 0x04000000#32 [0x13#8, 0x03#8] = .ok (.checksum [0x13#8, 0x03#8]) ∧
  decode 0x10011001#32 [] = .ok (.encode 0x01#8 0x1001#16 []) ∧
  decode 0x20000000#32 [0x01#8, 0x10#8] = .ok (.decode [0x01#8, 0x10#8]) ∧
  decode 0x30001002#32 [] = .ok (.lookup 0x1002#16) ∧
  decode 0x31001002#32 [0x00#8, 0x64#8] = .ok (.dispatch 0x1002#16 [0x00#8, 0x64#8])

/-! ### The checksum engine -/

/-- R80: entry `i` of the table ROM is eight reflected shift steps on `i` with 0xA001. -/
def Obligations.CrcTableFollowsItsGeneratingRule : Prop :=
  ∀ i : Byte, crcTable i =
    (fun c : Half => if c.getLsbD 0 then (c >>> 1) ^^^ 0xA001#16 else c >>> 1)^[8] (i.setWidth 16)

/-- R81, R82: the checksum starts from 0x0000 and takes one byte at a time, left to right, the table entry at
`(c XOR byte) & 0xFF` combined with `c >> 8`; nothing is done to the result. -/
def Obligations.ChecksumTakesOneByteAtATime : Prop :=
  checksum [] = 0x0000#16 ∧
  ∀ (s : List Byte) (b : Byte),
    checksum (s ++ [b]) =
      crcTable (BitVec.ofNat 8 ((checksum s ^^^ b.zeroExtend 16) &&& 0x00FF#16).toNat) ^^^ (checksum s >>> 8)

/-- The spec's own inference (spec/40_checksum.md section 1, R83): the table form of the step equals the bit-serial form,
on all 2^24 inputs. -/
def Obligations.CrcStepEqualsTheBitSerialForm : Prop :=
  ∀ (c : Half) (b : Byte), crcStep c b =
    (fun c : Half => if c.getLsbD 0 then (c >>> 1) ^^^ 0xA001#16 else c >>> 1)^[8] (c ^^^ b.setWidth 16)

/-- R84: CRC_CLEAR, and when its word is illegal. -/
def Obligations.CrcClearZeroesTheAccumulator : Prop :=
  ∀ s : State,
    exec .crcClear s = .next { s with crc := 0x0000#16, status := 0x00#8, res := { Results.reset with crc := 0x0000#16 } } ∧
    ∀ (w : CommandWord) (d : List Byte), w.toNat / 2 ^ 24 = 0x01 →
      (w = 0x01000000#32 ∧ d = [] → issue w d s = exec .crcClear s) ∧
      (¬ (w = 0x01000000#32 ∧ d = []) → issue w d s = .next { s with status := 0x06#8, res := Results.reset })

/-- R85: CRC_BYTE takes one CRC step, and when its word is illegal. -/
def Obligations.CrcByteTakesOneStep : Prop :=
  ∀ (s : State) (b : Byte),
    exec (.crcByte b) s = .next { s with
      crc := crcTable (BitVec.ofNat 8 (s.crc.toNat % 256) ^^^ b) ^^^ (s.crc >>> 8)
      status := 0x00#8
      res := { Results.reset with crc := crcTable (BitVec.ofNat 8 (s.crc.toNat % 256) ^^^ b) ^^^ (s.crc >>> 8) } } ∧
    ∀ (w : CommandWord) (d : List Byte), w.toNat / 2 ^ 24 = 0x02 → w.toNat % 2 ^ 8 = b.toNat →
      (w.toNat / 2 ^ 8 % 2 ^ 16 = 0 ∧ d = [] → issue w d s = exec (.crcByte b) s) ∧
      (¬ (w.toNat / 2 ^ 8 % 2 ^ 16 = 0 ∧ d = []) → issue w d s = .next { s with status := 0x06#8, res := Results.reset })

/-- R86: CRC_READ shows `CRC` and does not change it, and when its word is illegal. -/
def Obligations.CrcReadShowsTheAccumulator : Prop :=
  ∀ s : State,
    exec .crcRead s = .next { s with status := 0x00#8, res := { Results.reset with crc := s.crc } } ∧
    ∀ (w : CommandWord) (d : List Byte), w.toNat / 2 ^ 24 = 0x03 →
      (w = 0x03000000#32 ∧ d = [] → issue w d s = exec .crcRead s) ∧
      (¬ (w = 0x03000000#32 ∧ d = []) → issue w d s = .next { s with status := 0x06#8, res := Results.reset })

/-- R87: CHECKSUM leaves the checksum of its operand, whatever `CRC` held; an oversize operand or an illegal word leaves
`CRC` unchanged. -/
def Obligations.ChecksumOfTheOperand : Prop :=
  ∀ (s : State) (d : List Byte),
    (d.length ≤ s.params.dataCap →
      exec (.checksum d) s = .next { s with
        crc := checksum d, status := 0x00#8, res := { Results.reset with crc := checksum d } }) ∧
    (s.params.dataCap < d.length →
      exec (.checksum d) s = .next { s with status := 0x05#8, res := Results.reset }) ∧
    ∀ w : CommandWord, w.toNat / 2 ^ 24 = 0x04 →
      (w = 0x04000000#32 → issue w d s = exec (.checksum d) s) ∧
      (w ≠ 0x04000000#32 → issue w d s = .next { s with status := 0x06#8, res := Results.reset })

/-- The spec's own inference (spec/40_checksum.md section 3, R88): CRC_CLEAR and then one CRC_BYTE for each byte of `m`,
issued one after the other, leave `CRC` and `RES_CRC` as CHECKSUM of `m` leaves them: from every state of an instance. -/
def Obligations.ByteStreamEqualsChecksum : Prop :=
  ∀ (s : State) (m : List Byte) (rest : List HostAction), s.params.wf = true →
    s.script = scriptOf (.crcClear :: m.map Instr.crcByte) ++ rest →
    ∃ t, Sys2Proof.core.run (m.length + 1) s = .next t ∧
      t = { s with crc := checksum m, status := 0x00#8, res := { Results.reset with crc := checksum m }, script := rest }

/-- The spec's own inference (spec/40_checksum.md section 3, R89): leading zero bytes do not change a checksum. -/
def Obligations.LeadingZerosAreInvisible : Prop :=
  ∀ (k : Nat) (m : List Byte), checksum (List.replicate k 0x00#8 ++ m) = checksum m

/-- The spec's own inference (spec/40_checksum.md section 3, R90): the checksum appended low byte first gives 0x0000. -/
def Obligations.ChecksumResidueIsZero : Prop :=
  ∀ p : List Byte, checksum (p ++ [(checksum p).setWidth 8, (checksum p >>> 8).setWidth 8]) = 0x0000#16

/-- The spec's own inference (spec/40_checksum.md section 3, R91): a change of exactly one byte changes the checksum. -/
def Obligations.OneChangedByteChangesTheChecksum : Prop :=
  ∀ (m : List Byte) (k : Nat) (b : Byte), k < m.length → m[k]? ≠ some b → checksum (m.set k b) ≠ checksum m

/-- R20: which commands write `CRC` and what, and which read it: for every other command the whole answer but `CRC` is
the same whatever `CRC` holds, and `CRC` is kept. -/
def Obligations.OnlyTheCrcCommandsTouchTheAccumulator : Prop :=
  (∀ p : Params, (State.resetWith p).crc = 0x0000#16) ∧
  ∀ (s : State) (c : Half),
    (∀ i : Instr, ∃ t, exec i s = .next t ∧
      (t.crc = match i with
        | .crcClear => 0x0000#16
        | .crcByte b => crcStep s.crc b
        | .checksum d => if d.length ≤ s.params.dataCap then checksum d else s.crc
        | .crcRead => s.crc
        | .encode _ _ _ => s.crc
        | .decode _ => s.crc
        | .lookup _ => s.crc
        | .dispatch _ _ => s.crc)) ∧
    (∀ i : Instr, (∀ b, i ≠ .crcByte b) → i ≠ .crcRead →
      ∃ t t', exec i s = .next t ∧ exec i { s with crc := c } = .next t' ∧ t'.status = t.status ∧ t'.res = t.res)

/-! ### The frame codec -/

/-- R101: ENCODE packs ADDR, CODE high byte first, the length, the payload and the prefix's checksum low byte first,
known code or not; a payload of more than 255 or `DATA_CAP` bytes raises OVERSIZE; no word of opcode 0x10 is illegal. -/
def Obligations.EncodePacksTheFrame : Prop :=
  ∀ (s : State) (addr : Byte) (code : Half) (d : List Byte),
    (d.length ≤ 255 → d.length ≤ s.params.dataCap →
      ∀ p : List Byte, p = [addr, (code >>> 8).setWidth 8, code.setWidth 8, BitVec.ofNat 8 d.length] ++ d →
      exec (.encode addr code d) s = .next { s with
        status := 0x00#8
        res := { Results.reset with
          data := p ++ [(checksum p).setWidth 8, (checksum p >>> 8).setWidth 8]
          addr := addr, cmd := code, len := BitVec.ofNat 8 d.length, crc := checksum p } }) ∧
    (255 < d.length ∨ s.params.dataCap < d.length →
      exec (.encode addr code d) s = .next { s with status := 0x05#8, res := Results.reset }) ∧
    (∀ w : CommandWord, w = 0x10000000#32 ||| (addr.setWidth 32 <<< 16) ||| code.setWidth 32 →
      issue w d s = exec (.encode addr code d) s)

/-- The spec's own inference (spec/41_frame_codec.md section 2, R102): every frame ENCODE outputs is a valid frame, and
the whole frame's checksum is 0x0000 (R90). -/
def Obligations.EncodeOutputsValidFrames : Prop :=
  ∀ (s t : State) (addr : Byte) (code : Half) (d : List Byte),
    exec (.encode addr code d) s = .next t → t.status = 0x00#8 →
    ValidFrame t.res.data ∧ t.res.data.length = 6 + d.length ∧ checksum t.res.data = 0x0000#16

/-- R103: DECODE, check by check in its order, and what each outcome exposes; surplus bytes are read by nothing;
and when its word is illegal. -/
def Obligations.DecodeChecksInOrder : Prop :=
  ∀ (s : State) (d : List Byte),
    (∀ (L : Nat) (rx code : Half),
    L = (d.getD 3 0).toNat →
    rx = d.getD (5 + L) 0 ++ d.getD (4 + L) 0 →
    code = d.getD 1 0 ++ d.getD 2 0 →
    exec (.decode d) s =
      if s.params.dataCap < d.length then .next { s with status := 0x05#8, res := Results.reset }
      else if d.length < 4 ∨ d.length < L + 6 then .next { s with status := 0x01#8, res := Results.reset }
      else if rx ≠ checksum (d.take (4 + L)) then .next { s with status := 0x02#8, res := Results.reset }
      else match lookupIndex s.params.catalog code with
        | none => .next { s with status := 0x03#8, res := { Results.reset with
            addr := d.getD 0 0, cmd := code, len := d.getD 3 0, crc := rx } }
        | some i => .next { s with status := 0x00#8, res := { Results.reset with
            addr := d.getD 0 0, cmd := code, len := d.getD 3 0, data := (d.drop 4).take L, crc := rx,
            idx := BitVec.ofNat 8 i } }) ∧
    (∀ w : CommandWord, w.toNat / 2 ^ 24 = 0x20 →
      (w = 0x20000000#32 → issue w d s = exec (.decode d) s) ∧
      (w ≠ 0x20000000#32 → issue w d s = .next { s with status := 0x06#8, res := Results.reset }))

/-- The completion of DECODE: a valid frame whose code the catalog has is accepted, from every state of an instance, and
bytes after it are ignored (spec/41_frame_codec.md R103; spec/92_eei_decisions.md D12). -/
def Obligations.DecodeAcceptsValidFramesOfKnownCodes : Prop :=
  ∀ (s : State) (f surplus : List Byte) (i : Nat) (e : Entry), s.params.wf = true →
    ValidFrame f → (f ++ surplus).length ≤ s.params.dataCap →
    s.params.catalog[i]? = some e → e.code = f.getD 1 0 ++ f.getD 2 0 →
    exec (.decode (f ++ surplus)) s = .next { s with
      status := 0x00#8
      res := { Results.reset with
        addr := f.getD 0 0, cmd := e.code, len := f.getD 3 0, data := (f.take (f.length - 2)).drop 4
        crc := checksum (f.take (f.length - 2)), idx := BitVec.ofNat 8 i } }

/-- The spec's own inference (spec/41_frame_codec.md section 3, R104): an accepted frame carries the checksum of its
prefix and a code of the catalog; of a frame that failed the checksum nothing reaches a result register. -/
def Obligations.AcceptedFramesAreGenuine : Prop :=
  ∀ (s t : State) (d : List Byte), exec (.decode d) s = .next t →
    (t.status = 0x00#8 → ∃ f surplus, d = f ++ surplus ∧ ValidFrame f ∧
      t.res.crc = checksum (f.take (f.length - 2)) ∧ t.res.data = (f.take (f.length - 2)).drop 4 ∧
      ∃ e ∈ s.params.catalog, e.code = t.res.cmd) ∧
    (t.status = 0x02#8 → t.res = Results.reset)

/-- The spec's own inference (spec/41_frame_codec.md section 3, R105): the round trip. DECODE of ENCODE's frame, on the
same instance in whatever later state, recovers address, code, length and payload when the code is in the catalog, and
address and code with UNKNOWN_COMMAND when it is not. -/
def Obligations.DecodeOfEncodeRecoversTheFrame : Prop :=
  ∀ (s s' : State) (addr : Byte) (code : Half) (p : List Byte),
    s.params.wf = true → s'.params = s.params → p.length ≤ 255 →
    ∃ t t', exec (.encode addr code p) s = .next t ∧ exec (.decode t.res.data) s' = .next t' ∧
      t'.res.addr = addr ∧ t'.res.cmd = code ∧ t'.res.len.toNat = p.length ∧
      ((∃ e ∈ s.params.catalog, e.code = code) → t'.status = 0x00#8 ∧ t'.res.data = p) ∧
      ((∀ e ∈ s.params.catalog, e.code ≠ code) → t'.status = 0x03#8 ∧ t'.res.data = [])

/-- The spec's own inference (spec/41_frame_codec.md section 3, R106): one changed byte of a valid frame. A byte other
than LEN: CHECKSUM_MISMATCH. LEN raised: TRUNCATED. LEN lowered: CHECKSUM_MISMATCH, unless the two bytes now read as the
checksum happen to equal that of the shorter prefix. -/
def Obligations.SingleByteCorruptionIsDetected : Prop :=
  ∀ (s : State) (f : List Byte) (k : Nat) (b : Byte),
    s.params.wf = true → ValidFrame f → k < f.length → f[k]? ≠ some b →
    ∃ t, exec (.decode (f.set k b)) s = .next t ∧
      (k ≠ 3 → t.status = 0x02#8) ∧
      (k = 3 → (f.getD 3 0).toNat < b.toNat → t.status = 0x01#8) ∧
      (k = 3 → b.toNat < (f.getD 3 0).toNat →
        (f.getD (5 + b.toNat) 0 ++ f.getD (4 + b.toNat) 0 ≠ checksum ((f.set 3 b).take (4 + b.toNat)) →
          t.status = 0x02#8) ∧
        (f.getD (5 + b.toNat) 0 ++ f.getD (4 + b.toNat) 0 = checksum ((f.set 3 b).take (4 + b.toNat)) →
          t.status = 0x00#8 ∨ t.status = 0x03#8))

/-- The spec's own inference (spec/41_frame_codec.md section 3, R108): six zero bytes are a valid frame, and DECODE takes
them as one of code 0x0000. -/
def Obligations.SixZeroBytesAreAFrame : Prop :=
  ValidFrame (List.replicate 6 0x00#8) ∧
  ∀ s : State, s.params.wf = true →
    ∃ t, exec (.decode (List.replicate 6 0x00#8)) s = .next t ∧
      ((∃ e ∈ s.params.catalog, e.code = 0x0000#16) → t.status = 0x00#8) ∧
      ((∀ e ∈ s.params.catalog, e.code ≠ 0x0000#16) → t.status = 0x03#8)

/-! ### The catalog and the payload dispatcher -/

/-- The spec's own inference from the `unique` check (spec/42_catalog_dispatch.md section 1, R127): in a legal catalog
the lookup gives `i` exactly when entry `i` has the code, and `none` exactly when no entry has it. -/
def Obligations.LookupIsAFunction : Prop :=
  ∀ (p : Params) (code : Half), p.wf = true →
    (∀ i, lookupIndex p.catalog code = some i ↔ ∃ e, p.catalog[i]? = some e ∧ e.code = code) ∧
    (lookupIndex p.catalog code = none ↔ ∀ e ∈ p.catalog, e.code ≠ code)

/-- R128: LOOKUP of a code the catalog has at index `i`, FixedString or Scaled; of a code it has not; and when its word
is illegal. -/
def Obligations.LookupReportsTheSchema : Prop :=
  ∀ s : State, s.params.wf = true →
    (∀ (i : Nat) (e : Entry) (n : Nat), s.params.catalog[i]? = some e → e.kind = .fixed n →
      exec (.lookup e.code) s = .next { s with status := 0x00#8, res := { Results.reset with
        cmd := e.code, idx := BitVec.ofNat 8 i, kind := 1#2, len := BitVec.ofNat 8 n } }) ∧
    (∀ (i : Nat) (e : Entry) (width div : Nat) (unit : String),
      s.params.catalog[i]? = some e → e.kind = .scaled width div unit →
      exec (.lookup e.code) s = .next { s with status := 0x00#8, res := { Results.reset with
        cmd := e.code, idx := BitVec.ofNat 8 i, kind := 2#2, len := BitVec.ofNat 8 width,
        div := BitVec.ofNat 16 div } }) ∧
    (∀ code : Half, (∀ e ∈ s.params.catalog, e.code ≠ code) →
      exec (.lookup code) s = .next { s with status := 0x03#8, res := { Results.reset with cmd := code } }) ∧
    (∀ (w : CommandWord) (d : List Byte), w.toNat / 2 ^ 24 = 0x30 →
      (w.toNat / 2 ^ 16 % 2 ^ 8 = 0 ∧ d = [] → issue w d s = exec (.lookup (w.setWidth 16)) s) ∧
      (¬ (w.toNat / 2 ^ 16 % 2 ^ 8 = 0 ∧ d = []) →
        issue w d s = .next { s with status := 0x06#8, res := Results.reset }))

/-- R130: DISPATCH of a FixedString(n) entry: exactly `n` bytes give the trimmed string, any other length within
`DATA_CAP` LENGTH_MISMATCH. -/
def Obligations.DispatchDecodesFixedStrings : Prop :=
  ∀ (s : State) (i : Nat) (e : Entry) (n : Nat) (d : List Byte), s.params.wf = true →
    s.params.catalog[i]? = some e → e.kind = .fixed n → d.length ≤ s.params.dataCap →
    (d.length = n → exec (.dispatch e.code d) s = .next { s with status := 0x00#8, res := { Results.reset with
      cmd := e.code, idx := BitVec.ofNat 8 i, kind := 1#2, data := trim s.params.padBytes d,
      len := BitVec.ofNat 8 (trim s.params.padBytes d).length } }) ∧
    (d.length ≠ n → exec (.dispatch e.code d) s = .next { s with status := 0x04#8, res := { Results.reset with
      cmd := e.code, idx := BitVec.ofNat 8 i } })

/-- R132: DISPATCH of a Scaled entry: exactly `W` bytes give the big-endian signed integer and the divisor, and the value
is the one divided by the other; any other length within `DATA_CAP` gives LENGTH_MISMATCH. -/
def Obligations.DispatchDecodesScaledIntegers : Prop :=
  ∀ (s : State) (i : Nat) (e : Entry) (width div : Nat) (unit : String) (d : List Byte), s.params.wf = true →
    s.params.catalog[i]? = some e → e.kind = .scaled width div unit → d.length ≤ s.params.dataCap →
    (d.length = width → ∃ x : BitVec 32,
      exec (.dispatch e.code d) s = .next { s with status := 0x00#8, res := { Results.reset with
        cmd := e.code, idx := BitVec.ofNat 8 i, kind := 2#2, int := x, div := BitVec.ofNat 16 div,
        len := BitVec.ofNat 8 width } } ∧
      (∀ a b, d = [a, b] → x.toInt = (a ++ b : BitVec 16).toInt) ∧
      (∀ a b c' e', d = [a, b, c', e'] → x = a ++ b ++ c' ++ e') ∧
      ∃ q : Rat, value x (BitVec.ofNat 16 div) = some q ∧ q * (div : Rat) = (x.toInt : Rat)) ∧
    (d.length ≠ width → exec (.dispatch e.code d) s = .next { s with status := 0x04#8, res := { Results.reset with
      cmd := e.code, idx := BitVec.ofNat 8 i } })

/-- R129: every outcome of DISPATCH, in the order of its checks, and when its word is illegal. -/
def Obligations.DispatchChecksInOrder : Prop :=
  ∀ (s : State) (code : Half) (d : List Byte),
    (exec (.dispatch code d) s =
      if s.params.dataCap < d.length then .next { s with status := 0x05#8, res := Results.reset }
      else match lookupEntry s.params.catalog code with
        | none => .next { s with status := 0x03#8, res := { Results.reset with cmd := code } }
        | some (i, e) =>
          match e.kind with
          | .fixed n =>
            if d.length ≠ n then
              .next { s with status := 0x04#8, res := { Results.reset with cmd := code, idx := BitVec.ofNat 8 i } }
            else .next { s with status := 0x00#8, res := { Results.reset with
              cmd := code, idx := BitVec.ofNat 8 i, kind := 1#2, data := trim s.params.padBytes d,
              len := BitVec.ofNat 8 (trim s.params.padBytes d).length } }
          | .scaled width div _ =>
            if d.length ≠ width then
              .next { s with status := 0x04#8, res := { Results.reset with cmd := code, idx := BitVec.ofNat 8 i } }
            else .next { s with status := 0x00#8, res := { Results.reset with
              cmd := code, idx := BitVec.ofNat 8 i, kind := 2#2, int := beSigned d width,
              div := BitVec.ofNat 16 div, len := BitVec.ofNat 8 width } }) ∧
    (∀ w : CommandWord, w.toNat / 2 ^ 24 = 0x31 → w.toNat % 2 ^ 16 = code.toNat →
      (w.toNat / 2 ^ 16 % 2 ^ 8 = 0 → issue w d s = exec (.dispatch code d) s) ∧
      (w.toNat / 2 ^ 16 % 2 ^ 8 ≠ 0 →
        issue w d s = .next { s with status := 0x06#8, res := Results.reset }))

/-- R131: trimming removes the longest run of pad bytes at the end and nothing else: the string is what it keeps followed
by pad bytes alone, and what it keeps does not end in a pad byte. -/
def Obligations.TrimRemovesTheLongestPadRun : Prop :=
  ∀ pads m : List Byte,
    (∃ run : List Byte, m = trim pads m ++ run ∧ ∀ b ∈ run, b ∈ pads) ∧
    ∀ b : Byte, (trim pads m).getLast? = some b → b ∉ pads

/-- R133: the ranges and the sign: two bytes give a number from -32768 to 32767, four bytes any 32-bit number, the first
byte the most significant, its top bit the sign. -/
def Obligations.IntegersAreBigEndianTwosComplement : Prop :=
  (∀ a b : Byte, (beSigned [a, b] 2).toInt =
    (a.toNat * 256 + b.toNat : Int) - if 128 ≤ a.toNat then 65536 else 0) ∧
  (∀ a b c d : Byte, (beSigned [a, b, c, d] 4).toInt =
    (a.toNat * 16777216 + b.toNat * 65536 + c.toNat * 256 + d.toNat : Int) -
      if 128 ≤ a.toNat then 4294967296 else 0)

/-- R134: the value of a Scaled result is the exact rational `x / d`, and `value64` is the finite binary64 number nearest
to it, the one with the even significand where two are equally near; the value of 0 is +0.0. There is a value exactly
when there is a divisor. -/
def Obligations.Value64IsTheNearestBinary64 : Prop :=
  ∀ (x : BitVec 32) (d : Half),
    (d = 0x0000#16 → value x d = none ∧ value64 x d = none) ∧
    (d ≠ 0x0000#16 → ∃ (q v : Rat) (b : BitVec 64),
      value x d = some q ∧ q * (d.toNat : Rat) = (x.toInt : Rat) ∧
      value64 x d = some b ∧ ofBinary64 b = some v ∧ (x = 0#32 → b = 0#64) ∧
      ∀ (b' : BitVec 64) (v' : Rat), ofBinary64 b' = some v' →
        |v - q| ≤ |v' - q| ∧ (|v - q| = |v' - q| → v' ≠ v → b.getLsbD 0 = false))

/-- R135: the sample a host assembles after a DISPATCH with STATUS = OK: code, name, value, unit, and its own timestamp. -/
def Obligations.SampleAfterDispatch : Prop :=
  ∀ (s t : State) (code : Half) (d : List Byte) (timestamp : Nat), s.params.wf = true →
    exec (.dispatch code d) s = .next t → t.status = 0x00#8 →
    ∃ e v, e ∈ s.params.catalog ∧ e.code = code ∧
      assembleSample timestamp t = some
        { command := t.res.cmd, name := e.name, value := v, unit := entryUnit e, timestamp := timestamp } ∧
      (t.res.kind = 1#2 → v = .text t.res.data ∧ entryUnit e = "") ∧
      (t.res.kind = 2#2 → ∃ q b, value t.res.int t.res.div = some q ∧ value64 t.res.int t.res.div = some b ∧
        v = .number q b) ∧
      (t.res.kind = 1#2 ∨ t.res.kind = 2#2)

/-- The spec's own inference (spec/42_catalog_dispatch.md section 5, R136): DISPATCH of the code and the payload of a
DECODE that gave OK ends with OK or LENGTH_MISMATCH, never with UNKNOWN_COMMAND. -/
def Obligations.DispatchAfterDecodeKnowsTheCode : Prop :=
  ∀ (s t : State) (d : List Byte), s.params.wf = true → exec (.decode d) s = .next t → t.status = 0x00#8 →
    ∃ u, exec (.dispatch t.res.cmd t.res.data) t = .next u ∧ (u.status = 0x00#8 ∨ u.status = 0x04#8) ∧
      u.res.cmd = t.res.cmd ∧ u.res.idx = t.res.idx

/-! ### Status, priority and results -/

/-- R157, R161: one status for each command, the first cause in the order of R161, with what it records; no error changes
`CRC`. -/
def Obligations.StatusHasTheFirstCause : Prop :=
  ∀ (w : CommandWord) (d : List Byte) (s : State) (opc L : Nat) (code : Half),
    opc = w.toNat / 2 ^ 24 → L = (d.getD 3 0).toNat → code = d.getD 1 0 ++ d.getD 2 0 →
    ∃ t, issue w d s = .next t ∧ (t.status ≠ 0x00#8 → t.crc = s.crc) ∧
      if illegalWord w d = true then t.status = 0x06#8 ∧ t.res = Results.reset
      else if s.params.dataCap < d.length ∨ (opc = 0x10 ∧ 255 < d.length) then
        t.status = 0x05#8 ∧ t.res = Results.reset
      else if opc = 0x20 then
        if d.length < 4 ∨ d.length < L + 6 then t.status = 0x01#8 ∧ t.res = Results.reset
        else if d.getD (5 + L) 0 ++ d.getD (4 + L) 0 ≠ checksum (d.take (4 + L)) then
          t.status = 0x02#8 ∧ t.res = Results.reset
        else if lookupIndex s.params.catalog code = none then
          t.status = 0x03#8 ∧ t.res = { Results.reset with
            cmd := code, addr := d.getD 0 0, len := d.getD 3 0, crc := checksum (d.take (4 + L)) }
        else t.status = 0x00#8
      else if opc = 0x30 ∨ opc = 0x31 then
        match lookupEntry s.params.catalog (w.setWidth 16) with
        | none => t.status = 0x03#8 ∧ t.res = { Results.reset with cmd := w.setWidth 16 }
        | some (i, e) =>
          if opc = 0x31 ∧ d.length ≠ schemaLength e.kind then
            t.status = 0x04#8 ∧ t.res = { Results.reset with cmd := w.setWidth 16, idx := BitVec.ofNat 8 i }
          else t.status = 0x00#8
      else t.status = 0x00#8

/-- R156: the codes of the statuses and their classes; after any command STATUS is the code of one of them, read back as
that status, and never 0x07 to 0xFF. -/
def Obligations.StatusIsAnAssignedCode : Prop :=
  (∀ e : Status, (e.code, e.class?) = match e with
    | .ok => (0x00#8, none)
    | .truncated => (0x01#8, some .retryable)
    | .checksumMismatch => (0x02#8, some .retryable)
    | .unknownCommand => (0x03#8, some .soft)
    | .lengthMismatch => (0x04#8, some .soft)
    | .oversize => (0x05#8, some .usage)
    | .illegalCommand => (0x06#8, some .usage)) ∧
  ∀ (w : CommandWord) (d : List Byte) (s : State), ∃ t e,
    issue w d s = .next t ∧ readStatus t = some e ∧ t.status = e.code ∧ t.status.toNat < 7

/-- R32: no value survives from an earlier command: on one instance with one `CRC`, a command leaves the same registers
whatever STATUS and the result registers held before; and a result register not at its reset value was written by a
command that the table of spec/10_state.md section 1 names for it. -/
def Obligations.NoResultSurvivesACommand : Prop :=
  (∀ (w : CommandWord) (d : List Byte) (s : State) (status : Byte) (res : Results),
    issue w d { s with status := status, res := res } = issue w d s) ∧
  ∀ (i : Instr) (s t : State), exec i s = .next t →
    (t.res.addr ≠ 0x00#8 → i.opcode = .encode ∨ i.opcode = .decode) ∧
    (t.res.cmd ≠ 0x0000#16 → i.opcode = .encode ∨ i.opcode = .decode ∨ i.opcode = .lookup ∨ i.opcode = .dispatch) ∧
    (t.res.len ≠ 0x00#8 → i.opcode = .encode ∨ i.opcode = .decode ∨ i.opcode = .lookup ∨ i.opcode = .dispatch) ∧
    (t.res.crc ≠ 0x0000#16 → i.opcode ≠ .lookup ∧ i.opcode ≠ .dispatch) ∧
    (t.res.data ≠ [] → i.opcode = .encode ∨ i.opcode = .decode ∨ i.opcode = .dispatch) ∧
    (t.res.kind ≠ 0#2 → i.opcode = .lookup ∨ i.opcode = .dispatch) ∧
    (t.res.idx ≠ 0x00#8 → i.opcode = .decode ∨ i.opcode = .lookup ∨ i.opcode = .dispatch) ∧
    (t.res.int ≠ 0#32 → i.opcode = .dispatch) ∧
    (t.res.div ≠ 0x0000#16 → i.opcode = .lookup ∨ i.opcode = .dispatch)

/-- The spec's own inference (spec/20_memory.md section 3, R50): any command but CRC_BYTE, repeated, changes nothing. -/
def Obligations.RepeatedCommandsGiveTheSameResults : Prop :=
  ∀ (i : Instr) (s t : State), (∀ b, i ≠ .crcByte b) → exec i s = .next t → exec i t = .next t

/-! ### Writing commands, runs and instances -/

/-- What the assembler lets through fits its fields and `DATA_CAP`, and a list given to a command that takes none is
refused (R72). That every element of a list is at most 0xFF, and that the list of `crc.feed` is bounded by `DATA_CAP`
with the others, is the model's choice (DESIGN CHOICE, notes/assumptions/6.md). -/
def Obligations.AssemblerRefusesWhatDoesNotFit : Prop :=
  ∀ (cap : Nat) (line : AsmLine) (is : List Instr), assemble cap line = some is →
    (∀ i ∈ is, i.wf cap = true) ∧
    (∀ ns, line.bytes = some ns → ns.length ≤ cap ∧ (∀ n ∈ ns, n ≤ 0xFF) ∧ line.name ≠ .crcClear ∧
      line.name ≠ .crcByte ∧ line.name ≠ .crcRead ∧ line.name ≠ .catLookup ∧ line.name ≠ .frameRequest) ∧
    (line.name = .crcByte → ∀ n ∈ line.numbers, n ≤ 0xFF) ∧
    (line.name = .frameEncode ∨ line.name = .frameRequest → ∀ n ∈ line.numbers.take 1, n ≤ 0xFF) ∧
    (line.name = .frameEncode ∨ line.name = .frameRequest → ∀ n ∈ line.numbers.drop 1, n ≤ 0xFFFF) ∧
    (line.name = .catLookup ∨ line.name = .catDispatch → ∀ n ∈ line.numbers, n ≤ 0xFFFF)

/-- `frame.request ADDR, CODE` is ENCODE with the empty payload (R73); `crc.feed` of a byte list is one CRC_BYTE for each
byte in order, none for the empty list (R74), and these commands, issued from any state of an instance, continue from the
current `CRC`: the spec's own inference (spec/30_encoding.md section 3, R74, derived there from R85 and R87). That a list
longer than `DATA_CAP` is refused is the model's choice (DESIGN CHOICE, notes/assumptions/6.md). -/
def Obligations.PseudoCommandsExpand : Prop :=
  (∀ (cap : Nat) (addr : Byte) (code : Half),
    assemble cap { name := .frameRequest, numbers := [addr.toNat, code.toNat], bytes := none } =
      some [.encode addr code []]) ∧
  (∀ (cap : Nat) (m : List Byte),
    (m.length ≤ cap → assemble cap { name := .crcFeed, numbers := [], bytes := some (m.map BitVec.toNat) } =
      some (m.map Instr.crcByte)) ∧
    (cap < m.length → assemble cap { name := .crcFeed, numbers := [], bytes := some (m.map BitVec.toNat) } = none)) ∧
  ∀ (s : State) (m : List Byte),
    (s.params.wf = true → s.script = scriptOf (m.map Instr.crcByte) →
      ∃ t, Sys2Proof.core.run m.length s = .next t ∧ t.crc = m.foldl crcStep s.crc ∧ t.script = [])

/-- A run takes the host's actions one by one, in the order the host issues them (R51, R188): as many steps as there are
actions end where the transcript ends, with one reading for each action and no action left. That a reset inside a run
counts as an action and is followed by a reading is the model's choice (DESIGN CHOICE, notes/assumptions/19.md). -/
def Obligations.RunsTakeTheActionsInOrder : Prop :=
  ∀ s : State, s.params.wf = true →
    ∃ u, runActions s.script { s with script := [] } = .next u ∧
      Sys2Proof.core.run s.script.length s = .next u.last ∧
      u.readings.length = s.script.length ∧ u.last.script = [] ∧ u.last.params = s.params

/-- The spec's own inference (spec/20_memory.md section 4, R54): actions on different instances commute. -/
def Obligations.ActionsOnDifferentInstancesCommute : Prop :=
  ∀ (bank : Bank) (j k : Nat) (a b : HostAction), j ≠ k → (∀ s ∈ bank, s.params.wf = true) →
    j < bank.length → k < bank.length →
    ∃ bank', andThen (actAt j a bank) (actAt k b) = .next bank' ∧
      andThen (actAt k b bank) (actAt j a) = .next bank' ∧
      ∀ m, m ≠ j → m ≠ k → bank'[m]? = bank[m]?

/-! ### Parameters that make no instance -/

/-- The model's own (DEDUCED, notes/assumptions/9.md: the rules speak of construction only): a state whose parameters fail
a check is no state of a block, and every step of it is refused, whatever its host would do. -/
def Obligations.EveryStepWithoutAnInstanceIsRefused : Prop :=
  ∀ s : State, ¬ LegalParams s.params → step s = .refused .noBlockInstance
end

