-- ==== Sys2Proof/Laws/Catalog.lean ====
section
/-!
SUPPORT. Sys2Proof/Laws/Catalog.lean: what a lookup answers, what the checks of R126 say, and where trimming stops.
-/

namespace Sys2Proof.Machine

/-- A lookup that gives an index: the entry there has the code. -/
theorem lookupIndex_some {cat : List Entry} {code : Half} {i : Nat} (h : lookupIndex cat code = some i) :
    ∃ e, cat[i]? = some e ∧ e.code = code := by
  obtain ⟨hlt, heq, -⟩ := List.findIdx?_eq_some_iff_getElem.mp h
  exact ⟨cat[i], List.getElem?_eq_getElem hlt, by simpa using heq⟩

/-- A lookup that gives no index: no entry has the code. -/
theorem lookupIndex_none {cat : List Entry} {code : Half} (h : lookupIndex cat code = none) :
    ∀ e ∈ cat, e.code ≠ code := by
  simpa [lookupIndex, List.findIdx?_eq_none_iff] using h

/-- The entry of a lookup is the one at its index. -/
theorem lookupEntry_some {cat : List Entry} {code : Half} {i : Nat} {e : Entry}
    (h : lookupEntry cat code = some (i, e)) :
    lookupIndex cat code = some i ∧ cat[i]? = some e ∧ e.code = code := by
  unfold lookupEntry at h
  split at h
  · simp at h
  · rename_i j hj
    obtain ⟨e', he', hc⟩ := lookupIndex_some hj
    simp only [he', Option.map_some, Option.some.injEq, Prod.mk.injEq] at h
    obtain ⟨rfl, rfl⟩ := h
    exact ⟨hj, he', hc⟩

/-- The lookup of an entry fails exactly when the lookup of its index does. -/
theorem lookupEntry_none_iff {cat : List Entry} {code : Half} :
    lookupEntry cat code = none ↔ lookupIndex cat code = none := by
  constructor
  · intro h
    unfold lookupEntry at h
    split at h
    · assumption
    · rename_i j hj
      obtain ⟨e', he', -⟩ := lookupIndex_some hj
      simp [he'] at h
  · intro h
    simp [lookupEntry, h]

/-- The checks of R175 and R126, taken apart. -/
theorem params_wf_iff (p : Params) :
    p.wf = true ↔ (Catalog.codesDistinct p.catalog = true ∧ (∀ e ∈ p.catalog, e.kind.wf = true) ∧
      p.catalog.length ≤ 256) ∧ 0x00#8 ∈ p.padBytes ∧ 261 ≤ p.dataCap := by
  simp [Params.wf, Catalog.wf, and_assoc]

/-- The trimmed string is the payload up to some position. -/
theorem trim_isPrefix (pads s : List Byte) : trim pads s <+: s := by
  have h : (s.reverse.dropWhile fun b => pads.contains b) <:+ s.reverse := List.dropWhile_suffix _
  have h' := List.reverse_prefix.mpr h
  rwa [List.reverse_reverse] at h'

theorem trim_length_le (pads s : List Byte) : (trim pads s).length ≤ s.length :=
  (trim_isPrefix pads s).length_le

end Sys2Proof.Machine
end

