-- ==== Sys2Proof/Laws/Crc.lean ====
section
/-!
SUPPORT. Sys2Proof/Laws/Crc.lean: the small lemmas of the checksum, of byte order and of the frame's shape.
-/

namespace Sys2Proof.Machine

@[simp] theorem crcFold_nil (c : Half) : crcFold c [] = c := rfl

@[simp] theorem crcFold_cons (c : Half) (b : Byte) (s : List Byte) :
    crcFold c (b :: s) = crcFold (crcStep c b) s := rfl

/-- A fold over a concatenation goes on from where the first part ended. -/
theorem crcFold_append (c : Half) (s t : List Byte) : crcFold c (s ++ t) = crcFold (crcFold c s) t := by
  simp [crcFold, List.foldl_append]

@[simp] theorem checksum_nil : checksum [] = 0x0000#16 := rfl

theorem checksum_append (s t : List Byte) : checksum (s ++ t) = crcFold (checksum s) t :=
  crcFold_append _ s t

/-- The two bytes of a 16-bit value put it together again. -/
@[simp] theorem ofBytes_hi_lo (v : Half) : ofBytes (hiByte v) (loByte v) = v := by
  unfold ofBytes hiByte loByte
  ext i hi
  simp
  grind

@[simp] theorem hiByte_ofBytes (hi lo : Byte) : hiByte (ofBytes hi lo) = hi := by
  unfold ofBytes hiByte
  ext i h
  simp
  grind

@[simp] theorem loByte_ofBytes (hi lo : Byte) : loByte (ofBytes hi lo) = lo := by
  unfold ofBytes loByte
  ext i h
  simp
  grind

@[simp] theorem framePrefix_length (a : Byte) (c : Half) (p : List Byte) :
    (framePrefix a c p).length = 4 + p.length := by
  simp [framePrefix, codeBytes]
  omega

@[simp] theorem buildFrame_length (a : Byte) (c : Half) (p : List Byte) :
    (buildFrame a c p).length = 6 + p.length := by
  simp [buildFrame, checksumBytes]
  omega

/-- A length of at most 255 is the number its length byte holds. -/
theorem lengthByte_toNat {s : List Byte} (h : s.length ≤ 255) : (lengthByte s).toNat = s.length := by
  simp [lengthByte]
  omega

/-- The frame layer, said once: the four ways `readFrame` answers and when. -/
theorem readFrame_cases (d : List Byte) :
    (readFrame d = .truncated ∧ (d.length < 4 ∨ d.length < declaredLength d + 6)) ∨
    (readFrame d = .checksumMismatch ∧ 4 ≤ d.length ∧ declaredLength d + 6 ≤ d.length ∧
      receivedChecksum d ≠ checksum (receivedPrefix d)) ∨
    (readFrame d = .valid (receivedFrame d) ∧ 4 ≤ d.length ∧ declaredLength d + 6 ≤ d.length ∧
      receivedChecksum d = checksum (receivedPrefix d)) := by
  unfold readFrame
  split
  · exact .inl ⟨rfl, .inl ‹_›⟩
  · split
    · exact .inl ⟨rfl, .inr ‹_›⟩
    · split
      · exact .inr (.inl ⟨rfl, by omega, by omega, ‹_›⟩)
      · exact .inr (.inr ⟨rfl, by omega, by omega, not_not.mp ‹_›⟩)

end Sys2Proof.Machine
end

