-- ==== Sys2Proof/Laws/Decode.lean ====
section
/-!
SUPPORT. Sys2Proof/Laws/Decode.lean: the fields of a command word put together from its bytes, and the opcodes.
-/

namespace Sys2Proof

@[simp] theorem fieldOpc_commandWord (o a b c : Byte) : fieldOpc (commandWord o a b c) = o := by
  unfold fieldOpc commandWord
  ext i hi
  simp
  grind

@[simp] theorem fieldAddr_commandWord (o a b c : Byte) : fieldAddr (commandWord o a b c) = a := by
  unfold fieldAddr commandWord
  ext i hi
  simp
  grind

@[simp] theorem fieldByte_commandWord (o a b c : Byte) : fieldByte (commandWord o a b c) = c := by
  unfold fieldByte commandWord
  ext i hi
  simp
  grind

/-- CODE is put together from its two bytes, as the word's last two. -/
@[simp] theorem fieldCode_commandWord (o a : Byte) (code : Half) :
    fieldCode (commandWord o a (code.extractLsb' 8 8) (code.extractLsb' 0 8)) = code := by
  unfold fieldCode commandWord
  ext i hi
  simp
  grind

/-- Every opcode is read back from its value. -/
@[simp] theorem ofValue_value (op : Opcode) : Opcode.ofValue? op.value = some op := by
  cases op <;> rfl

/-- An opcode that is read has that value. -/
theorem value_of_ofValue {b : Byte} {op : Opcode} (h : Opcode.ofValue? b = some op) : op.value = b := by
  unfold Opcode.ofValue? at h
  apply BitVec.eq_of_toNat_eq
  split at h <;> simp_all <;> subst h <;> rfl

end Sys2Proof
end

