-- ==== Sys2Proof/Laws/State.lean ====
section
/-!
SUPPORT. Sys2Proof/Laws/State.lean: one lemma per field per update of the state, and per field of the reset values, so
that no proof unfolds a record update.
-/

namespace Sys2Proof.Machine

@[simp] theorem resetResults_params (s : State) : (resetResults s).params = s.params := rfl
@[simp] theorem resetResults_crc (s : State) : (resetResults s).crc = s.crc := rfl
@[simp] theorem resetResults_status (s : State) : (resetResults s).status = s.status := rfl
@[simp] theorem resetResults_res (s : State) : (resetResults s).res = Results.reset := rfl
@[simp] theorem resetResults_script (s : State) : (resetResults s).script = s.script := rfl

@[simp] theorem writeCrc_params (c : Half) (s : State) : (writeCrc c s).params = s.params := rfl
@[simp] theorem writeCrc_crc (c : Half) (s : State) : (writeCrc c s).crc = c := rfl
@[simp] theorem writeCrc_status (c : Half) (s : State) : (writeCrc c s).status = s.status := rfl
@[simp] theorem writeCrc_res (c : Half) (s : State) : (writeCrc c s).res = s.res := rfl
@[simp] theorem writeCrc_script (c : Half) (s : State) : (writeCrc c s).script = s.script := rfl

@[simp] theorem writeResults_params (r : Results) (s : State) : (writeResults r s).params = s.params := rfl
@[simp] theorem writeResults_crc (r : Results) (s : State) : (writeResults r s).crc = s.crc := rfl
@[simp] theorem writeResults_status (r : Results) (s : State) : (writeResults r s).status = s.status := rfl
@[simp] theorem writeResults_res (r : Results) (s : State) : (writeResults r s).res = r := rfl
@[simp] theorem writeResults_script (r : Results) (s : State) : (writeResults r s).script = s.script := rfl

@[simp] theorem writeStatus_params (e : Status) (s : State) : (writeStatus e s).params = s.params := rfl
@[simp] theorem writeStatus_crc (e : Status) (s : State) : (writeStatus e s).crc = s.crc := rfl
@[simp] theorem writeStatus_status (e : Status) (s : State) : (writeStatus e s).status = e.code := rfl
@[simp] theorem writeStatus_res (e : Status) (s : State) : (writeStatus e s).res = s.res := rfl
@[simp] theorem writeStatus_script (e : Status) (s : State) : (writeStatus e s).script = s.script := rfl

@[simp] theorem applyReset_params (s : State) : (applyReset s).params = s.params := rfl
@[simp] theorem applyReset_crc (s : State) : (applyReset s).crc = 0x0000#16 := rfl
@[simp] theorem applyReset_status (s : State) : (applyReset s).status = 0x00#8 := rfl
@[simp] theorem applyReset_res (s : State) : (applyReset s).res = Results.reset := rfl
@[simp] theorem applyReset_script (s : State) : (applyReset s).script = s.script := rfl

@[simp] theorem resetWith_params (p : Params) : (State.resetWith p).params = p := rfl
@[simp] theorem resetWith_crc (p : Params) : (State.resetWith p).crc = 0x0000#16 := rfl
@[simp] theorem resetWith_status (p : Params) : (State.resetWith p).status = 0x00#8 := rfl
@[simp] theorem resetWith_res (p : Params) : (State.resetWith p).res = Results.reset := rfl
@[simp] theorem resetWith_script (p : Params) : (State.resetWith p).script = [] := rfl

@[simp] theorem resetResult_addr : Results.reset.addr = 0x00#8 := rfl
@[simp] theorem resetResult_cmd : Results.reset.cmd = 0x0000#16 := rfl
@[simp] theorem resetResult_len : Results.reset.len = 0x00#8 := rfl
@[simp] theorem resetResult_crc : Results.reset.crc = 0x0000#16 := rfl
@[simp] theorem resetResult_data : Results.reset.data = [] := rfl
@[simp] theorem resetResult_kind : Results.reset.kind = 0#2 := rfl
@[simp] theorem resetResult_idx : Results.reset.idx = 0x00#8 := rfl
@[simp] theorem resetResult_int : Results.reset.int = 0#32 := rfl
@[simp] theorem resetResult_div : Results.reset.div = 0x0000#16 := rfl

@[simp] theorem withFetchWord_params (s : State) (nbits w : Nat) :
    (s.withFetchWord nbits w).params = s.params := rfl
@[simp] theorem withFetchWord_crc (s : State) (nbits w : Nat) :
    (s.withFetchWord nbits w).crc = s.crc := rfl
@[simp] theorem withFetchWord_status (s : State) (nbits w : Nat) :
    (s.withFetchWord nbits w).status = s.status := rfl
@[simp] theorem withFetchWord_res (s : State) (nbits w : Nat) :
    (s.withFetchWord nbits w).res = s.res := rfl
@[simp] theorem withFetchWord_script (s : State) (nbits w : Nat) :
    (s.withFetchWord nbits w).script = .command (BitVec.ofNat 32 (w % 2 ^ nbits)) [] :: s.script := rfl

end Sys2Proof.Machine
end

