-- ==== Sys2Proof/Laws/Ops.lean ====
section
/-!
SUPPORT. Sys2Proof/Laws/Ops.lean: what the shared operations and the eight meanings can do, each said once.
-/

namespace Sys2Proof.Machine

/-- `finish` answers the next state whose STATUS is OK and whose result registers are the given ones. -/
theorem finishWith_eq (r : Results) (s : State) :
    finishWith r s = .next { s with status := 0x00#8, res := r } := rfl

/-- `raise` answers the next state whose STATUS is the code and whose result registers are the given ones. -/
theorem raiseWith_eq (e : Status) (r : Results) (s : State) :
    raiseWith e r s = .next { s with status := e.code, res := r } := rfl

theorem raise_eq (e : Status) (s : State) :
    raise e s = .next { s with status := e.code, res := Results.reset } := rfl

theorem execIllegal_eq (s : State) :
    execIllegal s = .next { s with status := 0x06#8, res := Results.reset } := rfl

theorem overCap_iff (d : List Byte) (s : State) : overCap d s = true ↔ s.params.dataCap < d.length := by
  simp [overCap]

/-- A status code is at most 6. -/
theorem status_code_le (e : Status) : e.code.toNat ≤ 6 := by
  cases e <;> decide

/-- Different statuses have different codes. -/
theorem status_code_inj {e e' : Status} (h : e.code = e'.code) : e = e' := by
  cases e <;> cases e' <;> first | rfl | exact absurd h (by decide)

theorem ofCode_code (e : Status) : Status.ofCode? e.code = some e := by
  cases e <;> rfl

/-- What an answer of a meaning looks like: a next state in which only `CRC`, STATUS and the result registers differ. -/
def Answers (o : Outcome) (s : State) : Prop :=
  ∃ c e r, o = .next { s with crc := c, status := Status.code e, res := r }

theorem finishWith_answers (r : Results) (s : State) : Answers (finishWith r s) s :=
  ⟨s.crc, .ok, r, rfl⟩

theorem raiseWith_answers (e : Status) (r : Results) (s : State) : Answers (raiseWith e r s) s :=
  ⟨s.crc, e, r, rfl⟩

theorem execCrcClear_answers (s : State) : Answers (execCrcClear s) s := ⟨_, .ok, _, rfl⟩

theorem execCrcByte_answers (b : Byte) (s : State) : Answers (execCrcByte b s) s := ⟨_, .ok, _, rfl⟩

theorem execCrcRead_answers (s : State) : Answers (execCrcRead s) s := ⟨_, .ok, _, rfl⟩

theorem execChecksum_answers (d : List Byte) (s : State) : Answers (execChecksum d s) s := by
  unfold execChecksum
  split
  · exact raiseWith_answers _ _ _
  · exact ⟨_, .ok, _, rfl⟩

theorem execEncode_answers (a : Byte) (c : Half) (d : List Byte) (s : State) :
    Answers (execEncode a c d s) s := by
  unfold execEncode
  split
  · exact raiseWith_answers _ _ _
  · exact finishWith_answers _ _

theorem execDecode_answers (d : List Byte) (s : State) : Answers (execDecode d s) s := by
  unfold execDecode
  split
  · exact raiseWith_answers _ _ _
  · split
    · exact raiseWith_answers _ _ _
    · exact raiseWith_answers _ _ _
    · split
      · exact raiseWith_answers _ _ _
      · exact finishWith_answers _ _

theorem execLookup_answers (c : Half) (s : State) : Answers (execLookup c s) s := by
  unfold execLookup
  split
  · exact raiseWith_answers _ _ _
  · exact finishWith_answers _ _

theorem execDispatch_answers (c : Half) (d : List Byte) (s : State) :
    Answers (execDispatch c d s) s := by
  unfold execDispatch
  split
  · exact raiseWith_answers _ _ _
  · split
    · exact raiseWith_answers _ _ _
    · split
      · exact raiseWith_answers _ _ _
      · exact finishWith_answers _ _

/-- Every command answers a next state, and leaves the instance's constants and the host's script alone. -/
theorem exec_answers (i : Instr) (s : State) : Answers (exec i s) s := by
  cases i with
  | crcClear => exact execCrcClear_answers s
  | crcByte b => exact execCrcByte_answers b s
  | crcRead => exact execCrcRead_answers s
  | checksum d => exact execChecksum_answers d s
  | encode a c d => exact execEncode_answers a c d s
  | decode d => exact execDecode_answers d s
  | lookup c => exact execLookup_answers c s
  | dispatch c d => exact execDispatch_answers c d s

theorem issue_answers (w : CommandWord) (d : List Byte) (s : State) : Answers (issue w d s) s := by
  unfold issue
  split
  · exact exec_answers _ _
  · exact raiseWith_answers _ _ _

/-- `issue` on a word the decoder accepts. -/
theorem issue_of_decode {w : CommandWord} {d : List Byte} {i : Instr} (h : decode w d = .ok i) (s : State) :
    issue w d s = exec i s := by
  simp [issue, h]

/-- `issue` on a word the decoder rejects. -/
theorem issue_of_reject {w : CommandWord} {d : List Byte} {e : Rejection} (h : decode w d = .error e) (s : State) :
    issue w d s = execIllegal s := by
  simp [issue, h]

/-- A step with an action to take, on parameters that make an instance. -/
theorem step_cons {s : State} {a : HostAction} {rest : List HostAction} (hs : s.script = a :: rest)
    (hw : s.params.wf = true) : step s = perform a { s with script := rest } := by
  simp [step, hs, act, hw]

/-- A step with no action left. -/
theorem step_nil {s : State} (hs : s.script = []) (hw : s.params.wf = true) : step s = .next s := by
  simp [step, hs, hw]

/-- A step on parameters that make no instance. -/
theorem step_refused {s : State} (hw : s.params.wf = false) : step s = .refused .noBlockInstance := by
  unfold step
  split <;> simp [act, hw]

end Sys2Proof.Machine
end

