-- ==== Sys2Proof/Laws/Meanings.lean ====
section
/-!
SUPPORT. Sys2Proof/Laws/Meanings.lean: what each meaning answers, one lemma for each way it can end, so that a proof cites
the way and does not unfold the meaning; and how the host's `core.run` takes one step.
-/

namespace Sys2Proof.Machine

theorem execChecksum_of_fits {d : List Byte} {s : State} (h : d.length ≤ s.params.dataCap) :
    execChecksum d s = .next { s with crc := checksum d, status := 0x00#8, res := crcResults (checksum d) } := by
  have : overCap d s = false := by simp [overCap, h]
  simp only [execChecksum, this]
  rfl

theorem execChecksum_of_over {d : List Byte} {s : State} (h : s.params.dataCap < d.length) :
    execChecksum d s = .next { s with status := 0x05#8, res := Results.reset } := by
  have : overCap d s = true := by simp [overCap, h]
  simp only [execChecksum, this]
  rfl

theorem execEncode_of_fits {d : List Byte} {s : State} (a : Byte) (c : Half) (h : d.length ≤ s.params.dataCap)
    (h' : d.length ≤ 255) :
    execEncode a c d s = .next { s with status := 0x00#8, res := encodeResults a c d } := by
  have : (overCap d s || decide (255 < d.length)) = false := by simp [overCap, h, h']
  simp only [execEncode, this]
  rfl

theorem execEncode_of_over {d : List Byte} {s : State} (a : Byte) (c : Half)
    (h : s.params.dataCap < d.length ∨ 255 < d.length) :
    execEncode a c d s = .next { s with status := 0x05#8, res := Results.reset } := by
  have : (overCap d s || decide (255 < d.length)) = true := by simpa [overCap] using h
  simp only [execEncode, this]
  rfl

theorem execDecode_of_over {d : List Byte} {s : State} (h : s.params.dataCap < d.length) :
    execDecode d s = .next { s with status := 0x05#8, res := Results.reset } := by
  have : overCap d s = true := by simp [overCap, h]
  simp only [execDecode, this]
  rfl

theorem execDecode_of_truncated {d : List Byte} {s : State} (h : d.length ≤ s.params.dataCap)
    (hr : readFrame d = .truncated) :
    execDecode d s = .next { s with status := 0x01#8, res := Results.reset } := by
  have : overCap d s = false := by simp [overCap, h]
  simp only [execDecode, this, hr]
  rfl

theorem execDecode_of_mismatch {d : List Byte} {s : State} (h : d.length ≤ s.params.dataCap)
    (hr : readFrame d = .checksumMismatch) :
    execDecode d s = .next { s with status := 0x02#8, res := Results.reset } := by
  have : overCap d s = false := by simp [overCap, h]
  simp only [execDecode, this, hr]
  rfl

theorem execDecode_of_unknown {d : List Byte} {s : State} {f : Frame} (h : d.length ≤ s.params.dataCap)
    (hr : readFrame d = .valid f) (hl : lookupIndex s.params.catalog f.code = none) :
    execDecode d s = .next { s with status := 0x03#8, res := headerResults f } := by
  have : overCap d s = false := by simp [overCap, h]
  simp only [execDecode, this, hr, hl]
  rfl

theorem execDecode_of_known {d : List Byte} {s : State} {f : Frame} {i : Nat} (h : d.length ≤ s.params.dataCap)
    (hr : readFrame d = .valid f) (hl : lookupIndex s.params.catalog f.code = some i) :
    execDecode d s = .next { s with status := 0x00#8, res := frameResults f i } := by
  have : overCap d s = false := by simp [overCap, h]
  simp only [execDecode, this, hr, hl]
  rfl

theorem execLookup_of_none {c : Half} {s : State} (h : lookupEntry s.params.catalog c = none) :
    execLookup c s = .next { s with status := 0x03#8, res := codeResults c } := by
  simp only [execLookup, h]
  rfl

theorem execLookup_of_some {c : Half} {s : State} {i : Nat} {e : Entry}
    (h : lookupEntry s.params.catalog c = some (i, e)) :
    execLookup c s = .next { s with status := 0x00#8, res := schemaResults c i e.kind } := by
  simp only [execLookup, h]
  rfl

theorem execDispatch_of_over {c : Half} {d : List Byte} {s : State} (h : s.params.dataCap < d.length) :
    execDispatch c d s = .next { s with status := 0x05#8, res := Results.reset } := by
  have : overCap d s = true := by simp [overCap, h]
  simp only [execDispatch, this]
  rfl

theorem execDispatch_of_none {c : Half} {d : List Byte} {s : State} (h : d.length ≤ s.params.dataCap)
    (hl : lookupEntry s.params.catalog c = none) :
    execDispatch c d s = .next { s with status := 0x03#8, res := codeResults c } := by
  have : overCap d s = false := by simp [overCap, h]
  simp only [execDispatch, this, hl]
  rfl

theorem execDispatch_of_length {c : Half} {d : List Byte} {s : State} {i : Nat} {e : Entry}
    (h : d.length ≤ s.params.dataCap) (hl : lookupEntry s.params.catalog c = some (i, e))
    (hk : d.length ≠ schemaLength e.kind) :
    execDispatch c d s = .next { s with status := 0x04#8, res := entryResults c i } := by
  have : overCap d s = false := by simp [overCap, h]
  simp only [execDispatch, this, hl]
  rw [if_neg Bool.false_ne_true, if_pos hk]
  rfl

theorem execDispatch_of_some {c : Half} {d : List Byte} {s : State} {i : Nat} {e : Entry}
    (h : d.length ≤ s.params.dataCap) (hl : lookupEntry s.params.catalog c = some (i, e))
    (hk : d.length = schemaLength e.kind) :
    execDispatch c d s =
      .next { s with status := 0x00#8, res := payloadResults s.params.padBytes c i e.kind d } := by
  have : overCap d s = false := by simp [overCap, h]
  simp only [execDispatch, this, hl]
  rw [if_neg Bool.false_ne_true, if_neg (not_not.mpr hk)]
  rfl

/-- In a catalog with distinct codes, equal codes are at one index. -/
theorem codesDistinct_index {cat : List Entry} (h : Catalog.codesDistinct cat = true) {i j : Nat} {e e' : Entry}
    (hi : cat[i]? = some e) (hj : cat[j]? = some e') (hc : e.code = e'.code) : i = j := by
  induction cat generalizing i j with
  | nil => simp at hi
  | cons a l ih =>
    simp only [Catalog.codesDistinct, Bool.and_eq_true, List.all_eq_true, bne_iff_ne] at h
    obtain ⟨hne, hl⟩ := h
    cases i <;> cases j <;> simp only [List.getElem?_cons_zero, List.getElem?_cons_succ, Option.some.injEq] at hi hj
    · rfl
    · exact absurd (hi ▸ hc.symm) (hne _ (List.mem_of_getElem? hj))
    · exact absurd (hj ▸ hc) (hne _ (List.mem_of_getElem? hi))
    · exact congrArg (· + 1) (ih hl hi hj)

/-- `core.run` past one step that answers a next state. -/
theorem core_run_succ {s t : State} (k : Nat) (h : step s = .next t) :
    Sys2Proof.core.run (k + 1) s = Sys2Proof.core.run k t := by
  have h' : Sys2Proof.core.step s = .next t := h
  simp only [Host.Core.run, h']

theorem core_run_zero (s : State) : Sys2Proof.core.run 0 s = .next s := rfl

/-- Issuing the word of a command is one action, and `perform` gives it to `issue`. -/
@[simp] theorem perform_ofInstr (i : Instr) (s : State) :
    perform (HostAction.ofInstr i) s = issue (encodeWord i) i.data s := rfl

end Sys2Proof.Machine
end

