-- ==== Sys2Proof/Laws/PerInstr.lean ====
section
/-!
SUPPORT. Sys2Proof/Laws/PerInstr.lean: the family `WordFields`: of every command, the word the encoder writes carries the
command's opcode in OPC and zero in every field its format reserves (R64, R65, R67), and hands over a data operand only
where its opcode takes one (R66).
-/

namespace Sys2Proof.Laws.WordFields

/-- What the encoder's word says of the command. -/
def Statement (i : Instr) : Prop :=
  fieldOpc (encodeWord i) = i.opcode.value ∧
  encodeWord i &&& i.opcode.format.reservedMask = 0#32 ∧
  (i.opcode.takesData = false → i.data = [])

theorem crcClear : Statement .crcClear := ⟨by decide, by decide, fun _ => rfl⟩

theorem crcByte (byte : Byte) : Statement (.crcByte byte) := by
  refine ⟨by simp [encodeWord, Instr.opcode, Opcode.value], ?_, fun _ => rfl⟩
  revert byte
  decide

theorem crcRead : Statement .crcRead := ⟨by decide, by decide, fun _ => rfl⟩

theorem checksum (d : List Byte) : Statement (.checksum d) :=
  ⟨by simp [encodeWord, Instr.opcode, Opcode.value], by simp only [encodeWord, Instr.opcode]; decide, by simp [Instr.opcode, Opcode.takesData]⟩

theorem encode (addr : Byte) (code : Half) (d : List Byte) : Statement (.encode addr code d) :=
  ⟨by simp [encodeWord, Instr.opcode, Opcode.value], by simp [Instr.opcode, Opcode.format, Format.reservedMask],
    by simp [Instr.opcode, Opcode.takesData]⟩

theorem decode (d : List Byte) : Statement (.decode d) :=
  ⟨by simp [encodeWord, Instr.opcode, Opcode.value], by simp only [encodeWord, Instr.opcode]; decide, by simp [Instr.opcode, Opcode.takesData]⟩

/-- A format K word has zero in bits [23:16]. -/
theorem reserved_code (o a b : Byte) : commandWord o 0#8 a b &&& Format.code.reservedMask = 0#32 := by
  unfold commandWord Format.reservedMask
  ext i hi
  have hk : i < 16 ∨ 16 ≤ i ∧ i < 24 ∨ 24 ≤ i := by omega
  rcases hk with hk | ⟨hk, hk'⟩ | hk
  · have : (0x00FF0000#32)[i] = false := by
      have := (by decide : ∀ j : Fin 16, (0x00FF0000#32).getLsbD j.val = false) ⟨i, hk⟩
      simpa [BitVec.getLsbD_eq_getElem hi] using this
    simp [this]
  · simp
    grind
  · have : (0x00FF0000#32)[i] = false := by
      have := (by decide : ∀ j : Fin 8, (0x00FF0000#32).getLsbD (24 + j.val) = false) ⟨i - 24, by omega⟩
      simpa [BitVec.getLsbD_eq_getElem hi, Nat.add_sub_cancel' hk] using this
    simp [this]

theorem lookup (code : Half) : Statement (.lookup code) :=
  ⟨by simp [encodeWord, Instr.opcode, Opcode.value], reserved_code _ _ _, fun _ => rfl⟩

theorem dispatch (code : Half) (d : List Byte) : Statement (.dispatch code d) :=
  ⟨by simp [encodeWord, Instr.opcode, Opcode.value], reserved_code _ _ _,
    by simp [Instr.opcode, Opcode.takesData]⟩

end Sys2Proof.Laws.WordFields
end

