-- ==== Sys2Proof/Tests/Slice0.lean ====
section
/-!
SUPPORT. Sys2Proof/Tests/Slice0.lean: tests against the spec's own vectors (spec/95_test_vectors.md; the vector's name
stands in the comment) and hand-written words, the smoke tests of WellFormed.lean, and one witness for the hypotheses of
each statement that has any (`witness_…`). The catalog is the spec's fixture EXCAT, which is invented for testing and is
no device's (spec/95_test_vectors.md section 0).
-/

namespace Sys2Proof.Tests

open Sys2Proof Sys2Proof.Machine

/-- The fixture catalog (spec/95_test_vectors.md section 0). -/
def excat : List Entry :=
  [{ code := 0x1001#16, name := "ex_fixed2", kind := .fixed 2 },
   { code := 0x1002#16, name := "ex_ac_voltage", kind := .scaled 2 10 "V" },
   { code := 0x1003#16, name := "ex_ac_power", kind := .scaled 2 1 "W" },
   { code := 0x1004#16, name := "ex_energy", kind := .scaled 4 100 "kWh" },
   { code := 0x2001#16, name := "ex_serial", kind := .fixed 11 },
   { code := 0x0000#16, name := "ex_zero", kind := .fixed 0 }]

/-- The fixture's parameters. -/
def fixture : Params := { catalog := excat, padBytes := [0x00#8, 0x20#8], dataCap := 261 }

/-- The fixture's instance after reset, with a prior `CRC`, about to be given one command. -/
def before (crc : Half) (w : CommandWord) (d : List Byte) : State :=
  { State.resetWith fixture with crc := crc, script := [.command w d] }

/-- What one step from there leaves of the registers a vector lists. -/
def after {α : Type} (s : State) (see : State → α) : Option α :=
  match step s with
  | .next t => some (see t)
  | .fault _ => none
  | .refused _ => none

/-! ### Decoding: words written out from R64 and R65 -/

-- OPC 0x01 and three zero bytes.
theorem test_word_crcClear : decode 0b00000001_00000000_00000000_00000000#32 [] = .ok .crcClear := by rfl

-- OPC 0x02, BYTE 0x13 in bits [7:0].
theorem test_word_crcByte : decode 0b00000010_00000000_00000000_00010011#32 [] = .ok (.crcByte 0x13#8) := by rfl

theorem test_word_crcRead : decode 0b00000011_00000000_00000000_00000000#32 [] = .ok .crcRead := by rfl

theorem test_word_checksum : decode 0b00000100_00000000_00000000_00000000#32 [0x13#8] = .ok (.checksum [0x13#8]) := by
  rfl

-- OPC 0x10, ADDR 0xA5 in bits [23:16], CODE 0x1001 in bits [15:0].
theorem test_word_encode :
    decode 0b00010000_10100101_00010000_00000001#32 [0x7F#8] = .ok (.encode 0xA5#8 0x1001#16 [0x7F#8]) := by rfl

theorem test_word_decode : decode 0b00100000_00000000_00000000_00000000#32 [] = .ok (.decode []) := by rfl

-- OPC 0x30, CODE 0x1002.
theorem test_word_lookup : decode 0b00110000_00000000_00010000_00000010#32 [] = .ok (.lookup 0x1002#16) := by rfl

-- OPC 0x31, CODE 0x2001.
theorem test_word_dispatch :
    decode 0b00110001_00000000_00100000_00000001#32 [0x41#8] = .ok (.dispatch 0x2001#16 [0x41#8]) := by rfl

-- R68, R67, R66: CR17, CR13, CR14.
theorem test_word_unassigned : decode 0x00000000#32 [] = .error .unassignedOpcode := by rfl
theorem test_word_reserved : decode 0x02000100#32 [] = .error .reservedBitSet := by rfl
theorem test_word_data : decode 0x02000013#32 [0x01#8] = .error .unexpectedData := by rfl

theorem test_decodeTableWord : decodeTableWord 32 0x3100ABCD = some (.dispatch 0xABCD#16 []) := by rfl

theorem test_withFetchWord :
    step (State.reset.withFetchWord 32 0x02000013) = exec (.crcByte 0x13#8) State.reset := by rfl

/-! ### WellFormed: an ill-formed term for each check, and the boundary values it lets through -/

theorem smoke_fixture : fixture.wf = true := by decide
theorem smoke_smallest : Params.smallest.wf = true := by decide

/-- The fixture with another catalog. -/
def withCatalog (cat : List Entry) : Params := { fixture with catalog := cat }

theorem smoke_duplicate_code :
    (withCatalog [{ code := 1#16, name := "a", kind := .fixed 1 }, { code := 1#16, name := "b", kind := .fixed 2 }]).wf
      = false := by decide
-- S13: a divisor of 0 is refused.
theorem smoke_divisor_zero : (withCatalog [{ code := 1#16, name := "a", kind := .scaled 2 0 "V" }]).wf = false := by decide
theorem smoke_divisor_wide : (withCatalog [{ code := 1#16, name := "a", kind := .scaled 2 65536 "V" }]).wf = false := by
  decide
theorem smoke_width : (withCatalog [{ code := 1#16, name := "a", kind := .scaled 3 1 "V" }]).wf = false := by decide
theorem smoke_length : (withCatalog [{ code := 1#16, name := "a", kind := .fixed 256 }]).wf = false := by decide
theorem smoke_boundaries :
    (withCatalog [{ code := 1#16, name := "a", kind := .fixed 255 }, { code := 2#16, name := "b", kind := .scaled 2 1 "" },
      { code := 3#16, name := "c", kind := .scaled 4 65535 "" }]).wf = true := by decide

/-- `k` FIXED(0) entries with the codes 0 to `k - 1`. -/
def entries (k : Nat) : List Entry :=
  (List.range k).map fun n => { code := BitVec.ofNat 16 n, name := "", kind := .fixed 0 }

theorem smoke_size : (withCatalog (entries 257)).wf = false := by decide +kernel
theorem smoke_size_boundary : (withCatalog (entries 256)).wf = true := by decide +kernel
theorem smoke_padBytes : ({ fixture with padBytes := [0x20#8] } : Params).wf = false := by decide
theorem smoke_dataCap : ({ fixture with dataCap := 260 } : Params).wf = false := by decide
theorem smoke_instr : (Instr.checksum [1#8, 2#8, 3#8]).wf 2 = false := by decide
theorem smoke_instr_fits : (Instr.checksum [1#8, 2#8, 3#8]).wf 3 = true := by decide

theorem test_construct_refuses :
    construct (withCatalog [{ code := 1#16, name := "a", kind := .scaled 2 0 "V" }]) = .refused .noBlockInstance := by
  rfl

/-! ### The commands, one step each -/

-- CR2
theorem test_crcClear :
    after (before 0x1234#16 0x01000000#32 []) (fun t => (t.status, t.crc, t.res.crc)) = some (0x00#8, 0x0000#16, 0x0000#16) := by
  decide

-- CR4
theorem test_crcByte :
    after (before 0xCD41#16 0x02000003#32 []) (fun t => (t.status, t.crc, t.res.crc)) = some (0x00#8, 0x314D#16, 0x314D#16) := by
  decide

-- CR13: a reserved bit leaves CRC alone.
theorem test_crcByte_reserved :
    after (before 0x314D#16 0x02000100#32 []) (fun t => (t.status, t.crc, t.res.crc)) = some (0x06#8, 0x314D#16, 0x0000#16) := by
  decide

-- CR8
theorem test_crcRead :
    after (before 0x314D#16 0x03000000#32 []) (fun t => (t.status, t.crc, t.res.crc)) = some (0x00#8, 0x314D#16, 0x314D#16) := by
  decide

-- CR11: the check value of "123456789".
theorem test_checksum :
    after (before 0x0000#16 0x04000000#32 [0x31#8, 0x32#8, 0x33#8, 0x34#8, 0x35#8, 0x36#8, 0x37#8, 0x38#8, 0x39#8])
      (fun t => (t.status, t.crc, t.res.crc)) = some (0x00#8, 0xBB3D#16, 0xBB3D#16) := by
  decide

-- CR12
theorem test_checksum_oversize :
    after (before 0x1234#16 0x04000000#32 (List.replicate 262 0x00#8)) (fun t => (t.status, t.crc, t.res.crc))
      = some (0x05#8, 0x1234#16, 0x0000#16) := by
  decide +kernel

-- EN6
theorem test_encode :
    after (before 0x5555#16 0x10011001#32 [0x13#8, 0x03#8]) (fun t => (t.status, t.crc, t.res.data, t.res.crc))
      = some (0x00#8, 0x5555#16, [0x01#8, 0x10#8, 0x01#8, 0x02#8, 0x13#8, 0x03#8, 0x2D#8, 0x1F#8], 0x1F2D#16) := by
  decide

-- EN19
theorem test_encode_oversize :
    after { before 0x5555#16 0x10011001#32 (List.replicate 256 0xAA#8) with
      params := { fixture with dataCap := 300 } } (fun t => (t.status, t.res)) = some (0x05#8, Results.reset) := by
  decide +kernel

-- DE3 and DE17: accepted, surplus bytes ignored.
theorem test_decode :
    after (before 0x5555#16 0x20000000#32 [0x01#8, 0x10#8, 0x02#8, 0x02#8, 0x00#8, 0x64#8, 0x61#8, 0x81#8, 0xDE#8, 0xAD#8])
      (fun t => (t.status, t.crc, t.res)) = some (0x00#8, 0x5555#16, { Results.reset with
        addr := 0x01#8, cmd := 0x1002#16, len := 0x02#8, data := [0x00#8, 0x64#8], crc := 0x8161#16, idx := 0x01#8 }) := by
  decide

-- DE8: an unknown code exposes the header.
theorem test_decode_unknown :
    after (before 0x5555#16 0x20000000#32 [0x01#8, 0x30#8, 0x01#8, 0x00#8, 0x00#8, 0x63#8]) (fun t => (t.status, t.res))
      = some (0x03#8, { Results.reset with addr := 0x01#8, cmd := 0x3001#16, crc := 0x6300#16 }) := by
  decide

-- LK3
theorem test_lookup :
    after (before 0x0000#16 0x30001004#32 []) (fun t => (t.status, t.res)) = some (0x00#8, { Results.reset with
      cmd := 0x1004#16, idx := 0x03#8, kind := 2#2, len := 0x04#8, div := 0x0064#16 }) := by
  decide

-- LK1
theorem test_lookup_fixed :
    after (before 0x0000#16 0x30001001#32 []) (fun t => (t.status, t.res)) = some (0x00#8, { Results.reset with
      cmd := 0x1001#16, kind := 1#2, len := 0x02#8 }) := by
  decide

-- DF7: a leading pad byte is kept; and a trailing one goes (DF5).
theorem test_dispatch_string :
    after (before 0x0000#16 0x31002001#32 [0x20#8, 0x41#8, 0x20#8, 0x00#8, 0x20#8, 0x20#8, 0x20#8, 0x20#8, 0x20#8, 0x20#8, 0x20#8])
      (fun t => (t.status, t.res)) = some (0x00#8, { Results.reset with
        cmd := 0x2001#16, idx := 0x04#8, kind := 1#2, data := [0x20#8, 0x41#8], len := 0x02#8 }) := by
  decide

-- DS8
theorem test_dispatch_scaled :
    after (before 0x0000#16 0x31001004#32 [0xFF#8, 0xFF#8, 0xFF#8, 0x9C#8]) (fun t => (t.status, t.res.int.toInt, t.res.div))
      = some (0x00#8, -100, 0x0064#16) := by
  decide

/-! ### What the host computes -/

-- DS5 and the inexact value64(100, 3) of section 2.7.
theorem test_value64 : value64 (BitVec.ofInt 32 32767) 10#16 = some 0x40A9996666666666#64 := by decide
theorem test_value64_inexact : value64 (BitVec.ofInt 32 100) 3#16 = some 0x4040AAAAAAAAAAAB#64 := by decide

-- The sample of DS1 (section 2.7).
theorem test_sample :
    (after (before 0x0000#16 0x31001002#32 [0x00#8, 0x64#8]) (assembleSample 7)).join.map
      (fun m => (m.command, m.name, m.unit, m.timestamp)) = some (0x1002#16, "ex_ac_voltage", "V", 7) := by
  decide

-- R72's example lines.
theorem test_assemble_encode :
    assembleText 261 "frame.encode 0x01, 0x1001, []".toList = some [.encode 0x01#8 0x1001#16 []] := by decide
theorem test_assemble_dispatch :
    (assembleText 261 "cat.dispatch 0x1002, [0x00, 0x64]".toList).map (fun is => is.map encode)
      = some [(0x31001002#32, [0x00#8, 0x64#8])] := by decide
theorem test_assemble_refuses : assembleText 261 "crc.read [0x13]".toList = none := by decide

end Sys2Proof.Tests
end

