-- ==== Sys2Proof/Tests/Witnesses.lean ====
section
/-!
SUPPORT. Sys2Proof/Tests/Witnesses.lean: for every statement that has hypotheses, a concrete state and operands that meet
all of them together, clause by clause and at the boundary values of a clause's range. Frames and states are those of
spec/95_test_vectors.md.
-/

namespace Sys2Proof.Tests

open Sys2Proof Sys2Proof.Machine

/-- The fixture's instance right after reset. -/
def fresh : State := State.resetWith fixture

/-- The same, with `CRC` 0x5555, its host about to take the actions `l`. -/
def waiting (l : List HostAction) : State := { fresh with crc := 0x5555#16, script := l }

/-- Frame A of section 2.3 (EN6). -/
def frameA : List Byte := [0x01#8, 0x10#8, 0x01#8, 0x02#8, 0x13#8, 0x03#8, 0x2D#8, 0x1F#8]

/-- A frame whose payload is the checksum of its own first bytes with LEN 0: lowering its LEN to 0 is an accidental match
(R106 (d)). Its first four bytes with LEN 0 are those of EN1, whose checksum bytes are 0x01, 0xA9. -/
def frameM : List Byte := buildFrame 0x01#8 0x1001#16 [0x01#8, 0xA9#8]

theorem frameA_valid : ValidFrame frameA := ⟨by decide +kernel, by decide +kernel⟩
theorem frameM_valid : ValidFrame frameM := ⟨by decide +kernel, by decide +kernel⟩

theorem witness_ResetGivesEveryRegisterItsValue :
    fixture.wf = true ∧ (waiting [.reset, .command 0x01000000#32 []]).params.wf = true ∧
      (waiting [.reset, .command 0x01000000#32 []]).script = .reset :: [.command 0x01000000#32 []] := by
  decide

/-- Legal parameters with the boundary values of R126. -/
theorem witness_OnlyLegalParametersMakeAnInstance_legal :
    LegalParams (withCatalog [{ code := 1#16, name := "a", kind := .fixed 255 },
      { code := 2#16, name := "b", kind := .scaled 4 65535 "V" }]) := by
  refine ⟨?_, ?_, ?_, by decide, by decide, by decide⟩
  · intro i j e e' hi hj hc
    match i, j with
    | 0, 0 => rfl
    | 1, 1 => rfl
    | 0, 1 => cases hi; cases hj; exact absurd hc (by decide)
    | 1, 0 => cases hi; cases hj; exact absurd hc (by decide)
    | i + 2, _ => simp [withCatalog] at hi
    | _, j + 2 => simp [withCatalog] at hj
  · intro e he n hn
    simp only [withCatalog, List.mem_cons, List.not_mem_nil, or_false] at he
    rcases he with rfl | rfl <;> simp at hn
    omega
  · intro e he w d u hn
    simp only [withCatalog, List.mem_cons, List.not_mem_nil, or_false] at he
    rcases he with rfl | rfl <;> simp at hn
    omega

/-- Illegal ones: a divisor of 0 (S13), and a buffer one byte too small. -/
theorem witness_OnlyLegalParametersMakeAnInstance_illegal :
    ¬ LegalParams (withCatalog [{ code := 1#16, name := "a", kind := .scaled 2 0 "V" }]) ∧
      ¬ LegalParams { fixture with dataCap := 260 } := by
  refine ⟨fun h => ?_, fun h => absurd h.2.2.2.2.2 (by decide)⟩
  have := (h.2.2.1 _ (List.mem_singleton.mpr rfl) 2 0 "V" rfl).1
  omega

theorem witness_EveryStepWithoutAnInstanceIsRefused :
    ¬ LegalParams { waiting [.reset] with params := { fixture with dataCap := 260 } }.params :=
  witness_OnlyLegalParametersMakeAnInstance_illegal.2

theorem witness_InvAtConstruction : fixture.wf = true := by decide

theorem fresh_inv : Inv fresh := by
  constructor <;> decide

theorem witness_EveryStepKeepsInv :
    ∃ s t, Inv s ∧ step s = .next t ∧ t.res.kind = kindScaled := by
  refine ⟨waiting [.command 0x31001002#32 [0x00#8, 0x64#8]], _, ?_, rfl, by decide⟩
  exact ⟨fresh_inv.1, fresh_inv.2, fresh_inv.3, fresh_inv.4, fresh_inv.5, fresh_inv.6, fresh_inv.7⟩

theorem witness_EveryCommandCompletes :
    (waiting [.command 0xFF000000#32 [0x01#8]]).params.wf = true ∧
      (waiting [.command 0xFF000000#32 [0x01#8]]).script = .command 0xFF000000#32 [0x01#8] :: [] := by
  decide

theorem witness_EveryRunIsSafe : (waiting [.reset]).params.wf = true := by decide

theorem witness_StepsKeepTheConstants : ∃ t, step (waiting [.reset]) = .next t := ⟨_, rfl⟩

theorem witness_StepRunsTheDecodedCommand :
    (waiting [.command 0x02000013#32 []]).params.wf = true ∧
      (waiting [.command 0x02000013#32 []]).script = .command 0x02000013#32 [] :: [] ∧
      decode 0x02000013#32 [] = .ok (.crcByte 0x13#8) :=
  ⟨by decide, rfl, rfl⟩

theorem witness_StepWithoutAnActionKeepsEverything :
    (waiting []).params.wf = true ∧ (waiting []).script = [] := by decide

theorem witness_EncodeOfDecodeIsTheWord :
    decode 0x31002001#32 [0x41#8] = .ok (.dispatch 0x2001#16 [0x41#8]) := rfl

theorem witness_IllegalWordsCompleteWithIllegalCommand :
    illegalWord 0x00000000#32 [] = true ∧ illegalWord 0x02000100#32 [] = true ∧ illegalWord 0x02000013#32 [0x01#8] = true ∧
      illegalWord 0x32000000#32 [] = true ∧ illegalWord 0x31010000#32 [] = true ∧
      illegalWord 0x020000FF#32 [] = false ∧ illegalWord 0x10FFFFFF#32 [0x01#8] = false := by
  decide

theorem witness_CrcClearZeroesTheAccumulator :
    (0x01000000#32).toNat / 2 ^ 24 = 0x01 ∧ (0x01800000#32).toNat / 2 ^ 24 = 0x01 ∧
      ¬ (0x01800000#32 = 0x01000000#32 ∧ ([] : List Byte) = []) := by
  decide

theorem witness_CrcByteTakesOneStep :
    ((0x02000013#32).toNat / 2 ^ 24 = 0x02 ∧ (0x02000013#32).toNat % 2 ^ 8 = (0x13#8).toNat ∧
      (0x02000013#32).toNat / 2 ^ 8 % 2 ^ 16 = 0) ∧
    ((0x02800013#32).toNat / 2 ^ 24 = 0x02 ∧ (0x02800013#32).toNat % 2 ^ 8 = (0x13#8).toNat ∧
      ¬ ((0x02800013#32).toNat / 2 ^ 8 % 2 ^ 16 = 0 ∧ ([] : List Byte) = [])) := by
  decide

theorem witness_CrcReadShowsTheAccumulator :
    (0x03000000#32).toNat / 2 ^ 24 = 0x03 ∧ (0x03000001#32).toNat / 2 ^ 24 = 0x03 ∧
      ¬ (0x03000001#32 = 0x03000000#32 ∧ ([] : List Byte) = []) := by
  decide

theorem witness_ChecksumOfTheOperand :
    (List.replicate 261 0x00#8).length ≤ fresh.params.dataCap ∧
      fresh.params.dataCap < (List.replicate 262 0x00#8).length ∧
      (0x04000000#32).toNat / 2 ^ 24 = 0x04 ∧ (0x04000001#32).toNat / 2 ^ 24 = 0x04 ∧ 0x04000001#32 ≠ 0x04000000#32 := by
  simp only [List.length_replicate]
  decide

theorem witness_ByteStreamEqualsChecksum :
    ∃ s : State, s.params.wf = true ∧
      s.script = scriptOf (.crcClear :: [0x13#8, 0x03#8].map Instr.crcByte) ++ [.reset] :=
  ⟨waiting _, by decide, rfl⟩

theorem witness_OneChangedByteChangesTheChecksum :
    1 < ([0x13#8, 0x03#8] : List Byte).length ∧ ([0x13#8, 0x03#8] : List Byte)[1]? ≠ some 0x04#8 := by decide

theorem witness_OnlyTheCrcCommandsTouchTheAccumulator :
    (∀ b, Instr.decode frameA ≠ .crcByte b) ∧ Instr.decode frameA ≠ .crcRead := by
  simp

theorem witness_EncodePacksTheFrame :
    (List.replicate 255 0xAA#8).length ≤ 255 ∧ (List.replicate 255 0xAA#8).length ≤ fresh.params.dataCap ∧
      255 < (List.replicate 256 0xAA#8).length ∧
      0x10FF1001#32 = 0x10000000#32 ||| ((0xFF#8).setWidth 32 <<< 16) ||| (0x1001#16).setWidth 32 := by
  simp only [List.length_replicate]
  decide

theorem witness_EncodeOutputsValidFrames :
    ∃ t, exec (.encode 0x01#8 0x1001#16 [0x13#8, 0x03#8]) fresh = .next t ∧ t.status = 0x00#8 :=
  ⟨_, rfl, by decide⟩

theorem witness_DecodeChecksInOrder :
    2 = (frameA.getD 3 0).toNat ∧ 0x1F2D#16 = frameA.getD 7 0 ++ frameA.getD 6 0 ∧
      0x1001#16 = frameA.getD 1 0 ++ frameA.getD 2 0 ∧
      (0x20000000#32).toNat / 2 ^ 24 = 0x20 ∧ (0x20000001#32).toNat / 2 ^ 24 = 0x20 ∧ 0x20000001#32 ≠ 0x20000000#32 := by
  decide

theorem witness_DecodeAcceptsValidFramesOfKnownCodes :
    fresh.params.wf = true ∧ ValidFrame frameA ∧ (frameA ++ [0xDE#8, 0xAD#8]).length ≤ fresh.params.dataCap ∧
      fresh.params.catalog[0]? = some { code := 0x1001#16, name := "ex_fixed2", kind := .fixed 2 } ∧
      0x1001#16 = frameA.getD 1 0 ++ frameA.getD 2 0 :=
  ⟨by decide, frameA_valid, by decide, by decide, by decide⟩

-- DE2, and DE14 for the second clause.
theorem witness_AcceptedFramesAreGenuine :
    (∃ t, exec (.decode frameA) fresh = .next t ∧ t.status = 0x00#8) ∧
      ∃ t, exec (.decode (frameA.set 5 0x04#8)) fresh = .next t ∧ t.status = 0x02#8 :=
  ⟨⟨_, rfl, by decide +kernel⟩, ⟨_, rfl, by decide +kernel⟩⟩

theorem witness_DecodeOfEncodeRecoversTheFrame :
    fresh.params.wf = true ∧ (waiting [.reset]).params = fresh.params ∧ (List.replicate 255 0xAA#8).length ≤ 255 ∧
      (∃ e ∈ fresh.params.catalog, e.code = 0x1001#16) ∧ (∀ e ∈ fresh.params.catalog, e.code ≠ 0x3001#16) := by
  simp only [List.length_replicate]
  decide

theorem witness_SingleByteCorruptionIsDetected :
    (fresh.params.wf = true ∧ ValidFrame frameA ∧ 7 < frameA.length ∧ frameA[7]? ≠ some 0x1E#8) ∧
    (3 < frameA.length ∧ frameA[3]? ≠ some 0x03#8 ∧ (frameA.getD 3 0).toNat < (0x03#8).toNat) ∧
    (frameA[3]? ≠ some 0x01#8 ∧ (0x01#8).toNat < (frameA.getD 3 0).toNat ∧
      frameA.getD 6 0 ++ frameA.getD 5 0 ≠ checksum ((frameA.set 3 0x01#8).take 5)) ∧
    (ValidFrame frameM ∧ frameM[3]? ≠ some 0x00#8 ∧ (0x00#8).toNat < (frameM.getD 3 0).toNat ∧
      frameM.getD 5 0 ++ frameM.getD 4 0 = checksum ((frameM.set 3 0x00#8).take 4)) :=
  ⟨⟨by decide, frameA_valid, by decide, by decide⟩, by decide, by decide +kernel,
    ⟨frameM_valid, by decide +kernel, by decide +kernel, by decide +kernel⟩⟩

theorem witness_SixZeroBytesAreAFrame :
    fresh.params.wf = true ∧ (∃ e ∈ fresh.params.catalog, e.code = 0x0000#16) ∧
      State.reset.params.wf = true ∧ ∀ e ∈ State.reset.params.catalog, e.code ≠ 0x0000#16 := by
  decide

theorem witness_LookupIsAFunction : fixture.wf = true := by decide

theorem witness_LookupReportsTheSchema :
    fresh.params.wf = true ∧
      fresh.params.catalog[5]? = some { code := 0x0000#16, name := "ex_zero", kind := .fixed 0 } ∧
      fresh.params.catalog[3]? = some { code := 0x1004#16, name := "ex_energy", kind := .scaled 4 100 "kWh" } ∧
      (∀ e ∈ fresh.params.catalog, e.code ≠ 0x3001#16) ∧
      ((0x3000FFFF#32).toNat / 2 ^ 24 = 0x30 ∧ (0x3000FFFF#32).toNat / 2 ^ 16 % 2 ^ 8 = 0) ∧
      ((0x30011002#32).toNat / 2 ^ 24 = 0x30 ∧ ¬ ((0x30011002#32).toNat / 2 ^ 16 % 2 ^ 8 = 0 ∧ ([] : List Byte) = [])) := by
  decide

theorem witness_DispatchDecodesFixedStrings :
    fresh.params.wf = true ∧
      fresh.params.catalog[0]? = some { code := 0x1001#16, name := "ex_fixed2", kind := .fixed 2 } ∧
      [0x13#8, 0x03#8].length ≤ fresh.params.dataCap ∧ [0x13#8, 0x03#8].length = 2 ∧ [0x13#8].length ≠ 2 ∧
      fresh.params.catalog[5]? = some { code := 0x0000#16, name := "ex_zero", kind := .fixed 0 } ∧
      ([] : List Byte).length = 0 := by
  decide

theorem witness_DispatchDecodesScaledIntegers :
    fresh.params.wf = true ∧
      fresh.params.catalog[1]? = some { code := 0x1002#16, name := "ex_ac_voltage", kind := .scaled 2 10 "V" } ∧
      [0x80#8, 0x00#8].length ≤ fresh.params.dataCap ∧ [0x80#8, 0x00#8].length = 2 ∧ [0x00#8].length ≠ 2 ∧
      fresh.params.catalog[3]? = some { code := 0x1004#16, name := "ex_energy", kind := .scaled 4 100 "kWh" } ∧
      [0x80#8, 0x00#8, 0x00#8, 0x00#8].length = 4 := by
  decide

theorem witness_DispatchChecksInOrder :
    ((0x31002001#32).toNat / 2 ^ 24 = 0x31 ∧ (0x31002001#32).toNat % 2 ^ 16 = (0x2001#16).toNat ∧
      (0x31002001#32).toNat / 2 ^ 16 % 2 ^ 8 = 0) ∧
    ((0x31012001#32).toNat / 2 ^ 24 = 0x31 ∧ (0x31012001#32).toNat % 2 ^ 16 = (0x2001#16).toNat ∧
      (0x31012001#32).toNat / 2 ^ 16 % 2 ^ 8 ≠ 0) := by
  decide

theorem witness_TrimRemovesTheLongestPadRun :
    (trim [0x00#8, 0x20#8] [0x41#8, 0x00#8]).getLast? = some 0x41#8 := by decide

-- Both clauses; in the second, two patterns equally near a value do not exclude each other's hypotheses.
theorem witness_Value64IsTheNearestBinary64 :
    (0x0000#16 : Half) = 0x0000#16 ∧ (0xFFFF#16 : Half) ≠ 0x0000#16 ∧ (ofBinary64 0x3FF0000000000000#64).isSome = true := by
  decide +kernel

theorem witness_SampleAfterDispatch :
    fresh.params.wf = true ∧
      (∃ t, exec (.dispatch 0x1002#16 [0x00#8, 0x64#8]) fresh = .next t ∧ t.status = 0x00#8 ∧ t.res.kind = 2#2) ∧
      ∃ t, exec (.dispatch 0x1001#16 [0x13#8, 0x03#8]) fresh = .next t ∧ t.status = 0x00#8 ∧ t.res.kind = 1#2 :=
  ⟨by decide, ⟨_, rfl, by decide, by decide⟩, ⟨_, rfl, by decide, by decide⟩⟩

theorem witness_DispatchAfterDecodeKnowsTheCode :
    fresh.params.wf = true ∧ ∃ t, exec (.decode frameA) fresh = .next t ∧ t.status = 0x00#8 :=
  ⟨by decide, _, rfl, by decide +kernel⟩

-- Every chain of causes: illegal, oversize, DECODE (truncated, mismatch, unknown, accepted), LOOKUP, DISPATCH.
theorem witness_StatusHasTheFirstCause :
    0x20 = (0x20000000#32).toNat / 2 ^ 24 ∧ 2 = (frameA.getD 3 0).toNat ∧
      0x1001#16 = frameA.getD 1 0 ++ frameA.getD 2 0 ∧ illegalWord 0x20000000#32 frameA = false := by
  decide

theorem witness_NoResultSurvivesACommand :
    ∃ t, exec (.dispatch 0x1002#16 [0x00#8, 0x64#8]) fresh = .next t ∧ t.res.int ≠ 0#32 ∧ t.res.div ≠ 0x0000#16 ∧
      t.res.kind ≠ 0#2 ∧ t.res.idx ≠ 0x00#8 ∧ t.res.len ≠ 0x00#8 ∧ t.res.cmd ≠ 0x0000#16 :=
  ⟨_, rfl, by decide⟩

theorem witness_NoResultSurvivesACommand_frame :
    ∃ t, exec (.encode 0x01#8 0x1001#16 []) fresh = .next t ∧ t.res.addr ≠ 0x00#8 ∧ t.res.crc ≠ 0x0000#16 ∧ t.res.data ≠ [] :=
  ⟨_, rfl, by decide⟩

theorem witness_RepeatedCommandsGiveTheSameResults :
    (∀ b, Instr.crcRead ≠ .crcByte b) ∧ ∃ t, exec .crcRead (waiting []) = .next t :=
  ⟨by simp, _, rfl⟩

theorem witness_AssemblerRefusesWhatDoesNotFit :
    assemble 261 { name := .crcByte, numbers := [0xFF], bytes := none } = some [.crcByte 0xFF#8] ∧
      assemble 261 { name := .frameEncode, numbers := [0xFF, 0xFFFF], bytes := some [0xFF] } =
        some [.encode 0xFF#8 0xFFFF#16 [0xFF#8]] ∧
      assemble 261 { name := .catLookup, numbers := [0xFFFF], bytes := none } = some [.lookup 0xFFFF#16] := by
  decide

-- The cat.dispatch and frame.request clauses at their greatest numbers, and lists of exactly `DATA_CAP` bytes.
theorem witness_AssemblerRefusesWhatDoesNotFit_more :
    assemble 2 { name := .catDispatch, numbers := [0xFFFF], bytes := some [0xFF, 0x00] } =
        some [.dispatch 0xFFFF#16 [0xFF#8, 0x00#8]] ∧
      assemble 2 { name := .frameRequest, numbers := [0xFF, 0xFFFF], bytes := none } =
        some [.encode 0xFF#8 0xFFFF#16 []] ∧
      assemble 2 { name := .crcFeed, numbers := [], bytes := some [0xFF, 0x00] } =
        some [.crcByte 0xFF#8, .crcByte 0x00#8] := by
  decide

theorem witness_PseudoCommandsExpand :
    ([0x13#8, 0x03#8] : List Byte).length ≤ 2 ∧ 1 < ([0x13#8, 0x03#8] : List Byte).length ∧
      ∃ s : State, s.params.wf = true ∧ s.script = scriptOf ([0x13#8, 0x03#8].map Instr.crcByte) :=
  ⟨by decide, by decide, waiting _, by decide, rfl⟩

theorem witness_RunsTakeTheActionsInOrder :
    (waiting [.command 0x01000000#32 [], .reset, .command 0xFF000000#32 []]).params.wf = true := by decide

theorem witness_ActionsOnDifferentInstancesCommute :
    0 ≠ 1 ∧ (∀ s ∈ [fresh, waiting []], s.params.wf = true) ∧ 0 < [fresh, waiting []].length ∧
      1 < [fresh, waiting []].length := by
  decide

end Sys2Proof.Tests
end

section
/-!
PROOFS. The state (spec/10_state.md): what a command's answer depends on (R20, R32) and which result registers it
writes (the table of section 1). The six commands that do not read `CRC` answer from the block's constants alone;
CRC_BYTE and CRC_READ from the constants and `CRC`.
-/

namespace Sys2Proof.Machine

/-! ### The table of registers -/

/-- The table of spec/10_state.md section 1: a result register that is not at its reset value is one that a command
with the opcode `op` may write. -/
def TableAllows (op : Opcode) (r : Results) : Prop :=
  (r.addr ≠ 0x00#8 → op = .encode ∨ op = .decode) ∧
  (r.cmd ≠ 0x0000#16 → op = .encode ∨ op = .decode ∨ op = .lookup ∨ op = .dispatch) ∧
  (r.len ≠ 0x00#8 → op = .encode ∨ op = .decode ∨ op = .lookup ∨ op = .dispatch) ∧
  (r.crc ≠ 0x0000#16 → op ≠ .lookup ∧ op ≠ .dispatch) ∧
  (r.data ≠ [] → op = .encode ∨ op = .decode ∨ op = .dispatch) ∧
  (r.kind ≠ 0#2 → op = .lookup ∨ op = .dispatch) ∧
  (r.idx ≠ 0x00#8 → op = .decode ∨ op = .lookup ∨ op = .dispatch) ∧
  (r.int ≠ 0#32 → op = .dispatch) ∧
  (r.div ≠ 0x0000#16 → op = .lookup ∨ op = .dispatch)

theorem tableAllows_reset (op : Opcode) : TableAllows op Results.reset := by
  simp [TableAllows]

theorem tableAllows_crcResults (op : Opcode) (hl : op ≠ .lookup) (hd : op ≠ .dispatch) (c : Half) :
    TableAllows op (crcResults c) := by
  simp [TableAllows, crcResults, hl, hd]

theorem tableAllows_encodeResults (a : Byte) (c : Half) (d : List Byte) :
    TableAllows .encode (encodeResults a c d) := by
  simp [TableAllows, encodeResults]

theorem tableAllows_headerResults (f : Frame) : TableAllows .decode (headerResults f) := by
  simp [TableAllows, headerResults]

theorem tableAllows_frameResults (f : Frame) (i : Nat) : TableAllows .decode (frameResults f i) := by
  simp [TableAllows, frameResults, headerResults]

theorem tableAllows_codeResults {op : Opcode} (h : op = .lookup ∨ op = .dispatch) (c : Half) :
    TableAllows op (codeResults c) := by
  simp [TableAllows, codeResults, h]

theorem tableAllows_entryResults (c : Half) (i : Nat) : TableAllows .dispatch (entryResults c i) := by
  simp [TableAllows, entryResults]

theorem tableAllows_schemaResults (c : Half) (i : Nat) (k : PayloadKind) :
    TableAllows .lookup (schemaResults c i k) := by
  cases k <;> simp [TableAllows, schemaResults, entryResults]

theorem tableAllows_payloadResults (pads : List Byte) (c : Half) (i : Nat) (k : PayloadKind) (d : List Byte) :
    TableAllows .dispatch (payloadResults pads c i k d) := by
  cases k <;> simp [TableAllows, payloadResults, stringResults, scaledResults, entryResults]

/-! ### What an answer depends on -/

/-- What a command leaves in `CRC`, of the block's constants and the value `c` before it (R20). -/
def crcAfter (i : Instr) (p : Params) (c : Half) : Half :=
  match i with
  | .crcClear => 0x0000#16
  | .crcByte b => crcStep c b
  | .checksum d => if d.length ≤ p.dataCap then checksum d else c
  | _ => c

/-- With given constants the command ends with one status and one set of result registers, which the table allows,
whatever the registers held before; `CRC` becomes what R20 says. -/
def AnswersFromConstants (i : Instr) : Prop :=
  ∀ p : Params, ∃ e r, TableAllows i.opcode r ∧ ∀ s : State, s.params = p →
    exec i s = .next { s with crc := crcAfter i p s.crc, status := Status.code e, res := r }

theorem crcClear_answersFromConstants : AnswersFromConstants .crcClear := fun _ =>
  ⟨.ok, crcResults 0x0000#16, tableAllows_crcResults .crcClear nofun nofun _, fun _ _ => rfl⟩

theorem checksum_answersFromConstants (d : List Byte) : AnswersFromConstants (.checksum d) := by
  intro p
  by_cases h : d.length ≤ p.dataCap
  · refine ⟨.ok, crcResults (checksum d), tableAllows_crcResults .checksum nofun nofun _, fun s hs => ?_⟩
    simp only [crcAfter, if_pos h]
    exact execChecksum_of_fits (hs ▸ h)
  · refine ⟨.oversize, Results.reset, tableAllows_reset _, fun s hs => ?_⟩
    simp only [crcAfter, if_neg h]
    exact execChecksum_of_over (hs ▸ not_le.mp h)

theorem encode_answersFromConstants (a : Byte) (c : Half) (d : List Byte) :
    AnswersFromConstants (.encode a c d) := by
  intro p
  by_cases h : d.length ≤ p.dataCap ∧ d.length ≤ 255
  · obtain ⟨hcap, hlen⟩ := h
    exact ⟨.ok, encodeResults a c d, tableAllows_encodeResults a c d,
      fun s hs => execEncode_of_fits a c (hs ▸ hcap) hlen⟩
  · exact ⟨.oversize, Results.reset, tableAllows_reset _,
      fun s hs => execEncode_of_over a c (by subst hs; omega)⟩

theorem decode_answersFromConstants (d : List Byte) : AnswersFromConstants (.decode d) := by
  intro p
  rcases Nat.lt_or_ge p.dataCap d.length with h | h
  · exact ⟨.oversize, Results.reset, tableAllows_reset _, fun s hs => execDecode_of_over (hs ▸ h)⟩
  cases hr : readFrame d with
  | truncated =>
    exact ⟨.truncated, Results.reset, tableAllows_reset _, fun s hs => execDecode_of_truncated (hs ▸ h) hr⟩
  | checksumMismatch =>
    exact ⟨.checksumMismatch, Results.reset, tableAllows_reset _,
      fun s hs => execDecode_of_mismatch (hs ▸ h) hr⟩
  | valid f =>
    cases hl : lookupIndex p.catalog f.code with
    | none =>
      exact ⟨.unknownCommand, headerResults f, tableAllows_headerResults f,
        fun s hs => execDecode_of_unknown (hs ▸ h) hr (hs ▸ hl)⟩
    | some i =>
      exact ⟨.ok, frameResults f i, tableAllows_frameResults f i,
        fun s hs => execDecode_of_known (hs ▸ h) hr (hs ▸ hl)⟩

theorem lookup_answersFromConstants (c : Half) : AnswersFromConstants (.lookup c) := by
  intro p
  cases hl : lookupEntry p.catalog c with
  | none =>
    exact ⟨.unknownCommand, codeResults c, tableAllows_codeResults (.inl rfl) c,
      fun s hs => execLookup_of_none (hs ▸ hl)⟩
  | some ie =>
    exact ⟨.ok, schemaResults c ie.1 ie.2.kind, tableAllows_schemaResults _ _ _,
      fun s hs => execLookup_of_some (hs ▸ hl)⟩

theorem dispatch_answersFromConstants (c : Half) (d : List Byte) : AnswersFromConstants (.dispatch c d) := by
  intro p
  rcases Nat.lt_or_ge p.dataCap d.length with h | h
  · exact ⟨.oversize, Results.reset, tableAllows_reset _, fun s hs => execDispatch_of_over (hs ▸ h)⟩
  cases hl : lookupEntry p.catalog c with
  | none =>
    exact ⟨.unknownCommand, codeResults c, tableAllows_codeResults (.inr rfl) c,
      fun s hs => execDispatch_of_none (hs ▸ h) (hs ▸ hl)⟩
  | some ie =>
    by_cases hk : d.length = schemaLength ie.2.kind
    · refine ⟨.ok, payloadResults p.padBytes c ie.1 ie.2.kind d, tableAllows_payloadResults _ _ _ _ _, ?_⟩
      rintro s rfl
      exact execDispatch_of_some h hl hk
    · exact ⟨.lengthMismatch, entryResults c ie.1, tableAllows_entryResults c ie.1,
        fun s hs => execDispatch_of_length (hs ▸ h) (hs ▸ hl) hk⟩

/-- Only CRC_BYTE and CRC_READ read `CRC` (R20). -/
theorem answersFromConstants_of_not_crcReader {i : Instr} (hb : ∀ b, i ≠ .crcByte b) (hr : i ≠ .crcRead) :
    AnswersFromConstants i := by
  cases i with
  | crcClear => exact crcClear_answersFromConstants
  | crcByte b => exact absurd rfl (hb b)
  | crcRead => exact absurd rfl hr
  | checksum d => exact checksum_answersFromConstants d
  | encode a c d => exact encode_answersFromConstants a c d
  | decode d => exact decode_answersFromConstants d
  | lookup c => exact lookup_answersFromConstants c
  | dispatch c d => exact dispatch_answersFromConstants c d

/-- The whole answer of any command is a function of the block's constants and `CRC` (R20, R32). -/
theorem exec_answers_from_constants_and_crc (i : Instr) (p : Params) (c : Half) :
    ∃ e r, TableAllows i.opcode r ∧ ∀ s : State, s.params = p → s.crc = c →
      exec i s = .next { s with crc := crcAfter i p c, status := Status.code e, res := r } := by
  by_cases hb : ∃ b, i = .crcByte b
  · obtain ⟨b, rfl⟩ := hb
    refine ⟨.ok, crcResults (crcStep c b), tableAllows_crcResults .crcByte nofun nofun _, ?_⟩
    rintro s - rfl
    rfl
  by_cases hr : i = .crcRead
  · subst hr
    refine ⟨.ok, crcResults c, tableAllows_crcResults .crcRead nofun nofun _, ?_⟩
    rintro s - rfl
    rfl
  obtain ⟨e, r, ha, h⟩ := answersFromConstants_of_not_crcReader (not_exists.mp hb) hr p
  exact ⟨e, r, ha, fun s hp hc => hc ▸ h s hp⟩

theorem exec_crc (i : Instr) (s : State) :
    ∃ t, exec i s = .next t ∧ t.crc = crcAfter i s.params s.crc := by
  obtain ⟨e, r, -, h⟩ := exec_answers_from_constants_and_crc i s.params s.crc
  exact ⟨_, h s rfl rfl, rfl⟩

theorem exec_ignores_status_and_results (i : Instr) (s : State) (status : Byte) (res : Results) :
    exec i { s with status := status, res := res } = exec i s := by
  obtain ⟨e, r, -, h⟩ := exec_answers_from_constants_and_crc i s.params s.crc
  rw [h s rfl rfl, h { s with status := status, res := res } rfl rfl]

theorem issue_ignores_status_and_results (w : CommandWord) (d : List Byte) (s : State) (status : Byte)
    (res : Results) : issue w d { s with status := status, res := res } = issue w d s := by
  cases hw : decode w d with
  | ok i => rw [issue_of_decode hw, issue_of_decode hw, exec_ignores_status_and_results]
  | error e => rw [issue_of_reject hw, issue_of_reject hw, execIllegal_eq, execIllegal_eq]

theorem exec_tableAllows {i : Instr} {s t : State} (h : exec i s = .next t) : TableAllows i.opcode t.res := by
  obtain ⟨e, r, ha, hr⟩ := exec_answers_from_constants_and_crc i s.params s.crc
  obtain rfl := Host.Outcome.next.inj ((hr s rfl rfl).symm.trans h)
  exact ha

/-! ### The obligations -/

/-- Settles O25: `crcAfter` is R20's account of `CRC`, and a command that does not read `CRC` answers from constants
that a change of `CRC` leaves alone. -/
theorem onlyTheCrcCommandsTouchTheAccumulator : Obligations.OnlyTheCrcCommandsTouchTheAccumulator := by
  refine ⟨resetWith_crc, fun s c => ⟨fun i => ?_, fun i hb hr => ?_⟩⟩
  · obtain ⟨t, ht, hc⟩ := exec_crc i s
    exact ⟨t, ht, hc.trans (by cases i <;> rfl)⟩
  · obtain ⟨e, r, -, h⟩ := answersFromConstants_of_not_crcReader hb hr s.params
    exact ⟨_, _, h s rfl, h { s with crc := c } rfl, rfl, rfl⟩

/-- Settles O46: the answer comes from the constants and `CRC`, and every set of result registers a command writes is
one the table allows. -/
theorem noResultSurvivesACommand : Obligations.NoResultSurvivesACommand :=
  ⟨issue_ignores_status_and_results, fun _ _ _ => exec_tableAllows⟩

end Sys2Proof.Machine
end

section
/-!
PROOFS. The command words (spec/30_encoding.md): `illegalWord`, which says in numbers which words R65 to R68 make
illegal, is what the decoder rejects.
-/

namespace Sys2Proof.Machine

/-- `OPC = w[31:24]` (R63) as a number. -/
theorem fieldOpc_toNat (w : CommandWord) : (fieldOpc w).toNat = w.toNat / 2 ^ 24 := by
  have hlt : w.toNat / 2 ^ 24 < 2 ^ 8 := by omega
  simpa [fieldOpc, Nat.shiftRight_eq_div_pow] using hlt

/-- An unassigned OPC makes a word illegal (R68). -/
theorem illegalWord_of_unassigned {w : CommandWord} (h : Opcode.ofValue? (fieldOpc w) = none) (d : List Byte) :
    illegalWord w d = true := by
  unfold illegalWord
  split
  case h_9 => rfl
  all_goals
    next hopc =>
      simp only [Opcode.ofValue?, fieldOpc_toNat, hopc, reduceCtorEq] at h

/-- Under an assigned OPC the format's mask (R67) and whether the opcode takes a data operand (R66) decide. -/
theorem illegalWord_of_assigned {w : CommandWord} {op : Opcode} (h : Opcode.ofValue? (fieldOpc w) = some op)
    (d : List Byte) :
    illegalWord w d = (w &&& op.format.reservedMask != 0#32 || !op.takesData && !d.isEmpty) := by
  have hopc : w.toNat / 2 ^ 24 = op.value.toNat := by rw [value_of_ofValue h, fieldOpc_toNat]
  unfold illegalWord
  rw [hopc]
  cases op <;> simp [Opcode.value, Opcode.format, Opcode.takesData, Format.reservedMask]

theorem decode_of_illegalWord {w : CommandWord} {d : List Byte} (h : illegalWord w d = true) :
    ∃ e, decode w d = .error e := by
  unfold decode
  cases hop : Opcode.ofValue? (fieldOpc w) with
  | none => exact ⟨_, rfl⟩
  | some op =>
    rw [illegalWord_of_assigned hop] at h
    by_cases hm : w &&& op.format.reservedMask = 0#32
    · have hdata : (!op.takesData && !d.isEmpty) = true := by simpa [hm] using h
      exact ⟨.unexpectedData, (if_neg (not_not.mpr hm)).trans (if_pos hdata)⟩
    · exact ⟨.reservedBitSet, if_pos hm⟩

theorem decode_of_legalWord {w : CommandWord} {d : List Byte} (h : illegalWord w d = false) :
    ∃ i, decode w d = .ok i := by
  unfold decode
  cases hop : Opcode.ofValue? (fieldOpc w) with
  | none => simp [illegalWord_of_unassigned hop] at h
  | some op =>
    obtain ⟨hmask, hdata⟩ := Bool.or_eq_false_iff.mp (illegalWord_of_assigned hop d ▸ h)
    have hm : w &&& op.format.reservedMask = 0#32 := by simpa using hmask
    exact ⟨op.assemble w d, (if_neg (not_not.mpr hm)).trans (if_neg (Bool.not_eq_true _ ▸ hdata))⟩

/-- Settles O12: the decoder rejects exactly the illegal words, and a rejected word ends in `execIllegal`. -/
theorem illegalWordsCompleteWithIllegalCommand : Obligations.IllegalWordsCompleteWithIllegalCommand := by
  refine fun w d s => ⟨fun h => ?_, fun h => ?_⟩
  · obtain ⟨e, he⟩ := decode_of_illegalWord h
    rw [issue_of_reject he, execIllegal_eq]
  · obtain ⟨i, hi⟩ := decode_of_legalWord h
    exact ⟨i, hi, issue_of_decode hi s⟩

end Sys2Proof.Machine
end

section
/-!
PROOFS. The checksum engine (spec/40_checksum.md): the table and its generating rule (R80), the step and the fold (R81,
R82), and the four CRC commands with their illegal words (R84 to R87). A word whose OPC is an assigned one either runs
that opcode's command or ends with ILLEGAL_COMMAND; what remains for each command is its format's mask in numbers.
-/

namespace Sys2Proof.Machine

/-! ### The table and the step -/

theorem shiftSteps8_eq_iterate (c : Half) : shiftSteps8 c = shiftStep^[8] c := rfl

/-- The listing of R80 is what its rule generates: a ROM of 256 words, compared word by word. -/
theorem crcTable_eq_crcEntry : ∀ i : Byte, crcTable i = crcEntry i := by decide

/-- The low byte of a 16-bit value, as a mask (R81). -/
theorem toNat_and_low_byte (v : Half) : (v &&& 0x00FF#16).toNat = v.toNat % 256 :=
  Nat.and_two_pow_sub_one_eq_mod v.toNat 8

theorem ofNat_low_byte (v : Half) : BitVec.ofNat 8 (v.toNat % 256) = v.setWidth 8 := by
  apply BitVec.eq_of_toNat_eq
  simp

/-- The table index of a step (R81): the low byte of `CRC`, XOR the byte. -/
theorem setWidth_xor_byte (c : Half) (b : Byte) :
    (c ^^^ b.setWidth 16).setWidth 8 = BitVec.ofNat 8 (c.toNat % 256) ^^^ b := by
  rw [ofNat_low_byte, BitVec.setWidth_xor, BitVec.setWidth_setWidth_of_le _ (by decide), BitVec.setWidth_eq]

theorem checksum_concat (s : List Byte) (b : Byte) : checksum (s ++ [b]) = crcStep (checksum s) b :=
  checksum_append s [b]

/-! ### Words of an assigned opcode -/

theorem ofValue_fieldOpc {w : CommandWord} {op : Opcode} (h : w.toNat / 2 ^ 24 = op.value.toNat) :
    Opcode.ofValue? (fieldOpc w) = some op := by
  have hopc : fieldOpc w = op.value := BitVec.eq_of_toNat_eq ((fieldOpc_toNat w).trans h)
  rw [hopc, ofValue_value]

/-- What makes a word of the opcode legal: no reserved bit set (R67), and a data operand only where the opcode takes
one (R66). -/
def LegalFor (op : Opcode) (w : CommandWord) (d : List Byte) : Prop :=
  w &&& op.format.reservedMask = 0#32 ∧ (op.takesData = true ∨ d = [])

/-- A legal word of an assigned opcode runs the command put together from it (R70). -/
theorem issue_of_legalFor {w : CommandWord} {op : Opcode} {d : List Byte} (h : w.toNat / 2 ^ 24 = op.value.toNat)
    (hl : LegalFor op w d) (s : State) : issue w d s = exec (op.assemble w d) s := by
  obtain ⟨hmask, hdata⟩ := hl
  refine issue_of_decode ?_ s
  rcases hdata with hdata | rfl <;> simp [decode, ofValue_fieldOpc h, *]

/-- Any other word of an assigned opcode ends with ILLEGAL_COMMAND and nothing else changed (R157). -/
theorem issue_of_not_legalFor {w : CommandWord} {op : Opcode} {d : List Byte}
    (h : w.toNat / 2 ^ 24 = op.value.toNat) (hl : ¬ LegalFor op w d) (s : State) :
    issue w d s = .next { s with status := 0x06#8, res := Results.reset } := by
  refine (illegalWordsCompleteWithIllegalCommand w d s).1 ?_
  rw [illegalWord_of_assigned (ofValue_fieldOpc h)]
  by_cases hmask : w &&& op.format.reservedMask = 0#32
  · simpa [LegalFor, hmask] using hl
  · simp [hmask]

/-- The two ways a word of an assigned opcode ends, with its legality said as `P`. -/
theorem issue_by_legality {w : CommandWord} {op : Opcode} {d : List Byte} {P : Prop}
    (h : w.toNat / 2 ^ 24 = op.value.toNat) (hP : LegalFor op w d ↔ P) (s : State) :
    (P → issue w d s = exec (op.assemble w d) s) ∧
    (¬ P → issue w d s = .next { s with status := 0x06#8, res := Results.reset }) :=
  ⟨fun hp => issue_of_legalFor h (hP.mpr hp) s, fun hp => issue_of_not_legalFor h (mt hP.mp hp) s⟩

/-- Formats N and S (R64, R67): of the words with one OPC, the one with 24 zeros below it has no reserved bit set. -/
theorem and_low24_eq_zero_iff {w : CommandWord} {opc : Nat} (h : w.toNat / 2 ^ 24 = opc) :
    w &&& 0x00FFFFFF#32 = 0#32 ↔ w = BitVec.ofNat 32 (opc * 2 ^ 24) := by
  have hlow : w.toNat &&& 0xFFFFFF = w.toNat % 2 ^ 24 := Nat.and_two_pow_sub_one_eq_mod w.toNat 24
  simp only [← BitVec.toNat_inj, BitVec.toNat_and, BitVec.toNat_ofNat, Nat.reducePow, Nat.reduceMod] at *
  omega

/-- Format B (R64, R67): no reserved bit is set when w[23:8] is zero. -/
theorem and_bits23_8_eq_zero_iff (w : CommandWord) :
    w &&& 0x00FFFF00#32 = 0#32 ↔ w.toNat / 2 ^ 8 % 2 ^ 16 = 0 := by
  have hfield : w &&& 0x00FFFF00#32 = (w.extractLsb' 8 16).setWidth 32 <<< 8 := by
    ext i hi
    interval_cases i <;> simp
  rw [hfield, ← BitVec.toNat_inj]
  simp [Nat.shiftLeft_eq, Nat.shiftRight_eq_div_pow]
  omega

theorem legalFor_crcClear_iff {w : CommandWord} (d : List Byte) (h : w.toNat / 2 ^ 24 = 0x01) :
    LegalFor .crcClear w d ↔ w = 0x01000000#32 ∧ d = [] :=
  and_congr (and_low24_eq_zero_iff h) (by simp [Opcode.takesData])

theorem legalFor_crcByte_iff (w : CommandWord) (d : List Byte) :
    LegalFor .crcByte w d ↔ w.toNat / 2 ^ 8 % 2 ^ 16 = 0 ∧ d = [] :=
  and_congr (and_bits23_8_eq_zero_iff w) (by simp [Opcode.takesData])

theorem legalFor_crcRead_iff {w : CommandWord} (d : List Byte) (h : w.toNat / 2 ^ 24 = 0x03) :
    LegalFor .crcRead w d ↔ w = 0x03000000#32 ∧ d = [] :=
  and_congr (and_low24_eq_zero_iff h) (by simp [Opcode.takesData])

theorem legalFor_checksum_iff {w : CommandWord} (d : List Byte) (h : w.toNat / 2 ^ 24 = 0x04) :
    LegalFor .checksum w d ↔ w = 0x04000000#32 :=
  (and_iff_left (.inl rfl)).trans (and_low24_eq_zero_iff h)

/-! ### The obligations -/

/-- Settles O14: the listing is what the rule generates, and eight shift steps are the rule iterated. -/
theorem crcTableFollowsItsGeneratingRule : Obligations.CrcTableFollowsItsGeneratingRule := fun i =>
  (crcTable_eq_crcEntry i).trans (shiftSteps8_eq_iterate _)

/-- Settles O15: the fold takes one more step for one more byte, at the index R81 masks. -/
theorem checksumTakesOneByteAtATime : Obligations.ChecksumTakesOneByteAtATime := by
  refine ⟨checksum_nil, fun s b => ?_⟩
  rw [checksum_concat, toNat_and_low_byte, ofNat_low_byte]
  rfl

/-- Settles O17: `execCrcClear` run symbolically, and the one legal word of its opcode. -/
theorem crcClearZeroesTheAccumulator : Obligations.CrcClearZeroesTheAccumulator := fun s =>
  ⟨rfl, fun _ d hopc => issue_by_legality hopc (legalFor_crcClear_iff d hopc) s⟩

/-- Settles O18: the step is `crcStep` at the index `setWidth_xor_byte` gives, and the word's BYTE field is the byte. -/
theorem crcByteTakesOneStep : Obligations.CrcByteTakesOneStep := by
  refine fun s b => ⟨?_, fun w d hopc hbyte => ?_⟩
  · rw [← setWidth_xor_byte]
    rfl
  · have hfield : fieldByte w = b := by
      apply BitVec.eq_of_toNat_eq
      simpa [fieldByte] using hbyte
    subst hfield
    exact issue_by_legality hopc (legalFor_crcByte_iff w d) s

/-- Settles O19: `execCrcRead` run symbolically, and the one legal word of its opcode. -/
theorem crcReadShowsTheAccumulator : Obligations.CrcReadShowsTheAccumulator := fun s =>
  ⟨rfl, fun _ d hopc => issue_by_legality hopc (legalFor_crcRead_iff d hopc) s⟩

/-- Settles O20: an operand that fits and one that does not are `execChecksum`'s two ways to end, and one word of its
opcode is legal. -/
theorem checksumOfTheOperand : Obligations.ChecksumOfTheOperand := fun s d =>
  ⟨execChecksum_of_fits, execChecksum_of_over, fun _ hopc =>
    issue_by_legality hopc (legalFor_checksum_iff d hopc) s⟩

end Sys2Proof.Machine
end

section
/-!
PROOFS. The frame codec (spec/41_frame_codec.md): ENCODE and DECODE with the frame's bytes written out. The two byte
orders are said in `>>>` and `++` once (R43, R58); then each outcome of a command is the way its meaning ends, and each
word is legal or not by its opcode (R101, R103).
-/

namespace Sys2Proof.Machine

/-! ### The frame in bytes -/

theorem hiByte_eq_setWidth (v : Half) : hiByte v = (v >>> 8).setWidth 8 := by
  apply BitVec.eq_of_toNat_eq
  simp [hiByte]

theorem loByte_eq_setWidth (v : Half) : loByte v = v.setWidth 8 := by
  apply BitVec.eq_of_toNat_eq
  simp [loByte]

/-- Two bytes put together (R58) are the first before the second. -/
theorem ofBytes_eq_append (hi lo : Byte) : ofBytes hi lo = hi ++ lo := by
  rw [BitVec.append_def, BitVec.shiftLeftZeroExtend_eq, BitVec.setWidth'_eq]
  rfl

theorem framePrefix_eq_append (a : Byte) (c : Half) (d : List Byte) :
    framePrefix a c d = [a, (c >>> 8).setWidth 8, c.setWidth 8, BitVec.ofNat 8 d.length] ++ d := by
  simp [framePrefix, codeBytes, hiByte_eq_setWidth, loByte_eq_setWidth, lengthByte]

theorem buildFrame_eq_append (a : Byte) (c : Half) (d : List Byte) :
    buildFrame a c d = framePrefix a c d ++
      [(checksum (framePrefix a c d)).setWidth 8, (checksum (framePrefix a c d) >>> 8).setWidth 8] := by
  simp [buildFrame, checksumBytes, hiByte_eq_setWidth, loByte_eq_setWidth]

theorem receivedChecksum_eq_append (d : List Byte) :
    receivedChecksum d = d.getD (5 + declaredLength d) 0 ++ d.getD (4 + declaredLength d) 0 :=
  ofBytes_eq_append _ _

theorem receivedPrefix_eq_take (d : List Byte) : receivedPrefix d = d.take (4 + declaredLength d) := by
  simp [receivedPrefix, slice]

theorem receivedFrame_code_eq_append (d : List Byte) : (receivedFrame d).code = d.getD 1 0 ++ d.getD 2 0 :=
  ofBytes_eq_append _ _

theorem receivedFrame_payload_eq_take_drop (d : List Byte) :
    (receivedFrame d).payload = (d.drop 4).take (declaredLength d) := by
  simp [receivedFrame, slice]

/-! ### The words -/

theorem extractLsb_append_extractLsb (c : Half) : c.extractLsb' 8 8 ++ c.extractLsb' 0 8 = c := by
  rw [BitVec.extractLsb'_append_extractLsb'_eq_extractLsb' (by rfl), BitVec.extractLsb'_eq_self]

/-- The word of ENCODE as its fields shifted into place (R64). -/
theorem encodeWord_encode_eq_or (a : Byte) (c : Half) (d : List Byte) :
    encodeWord (.encode a c d) = 0x10000000#32 ||| (a.setWidth 32 <<< 16) ||| c.setWidth 32 :=
  calc
    encodeWord (.encode a c d) = 0x10#8 ++ a ++ (c.extractLsb' 8 8 ++ c.extractLsb' 0 8) := BitVec.append_assoc
    _ = 0x10#8 ++ a ++ c := by rw [extractLsb_append_extractLsb]
    _ = 0x10000000#32 ||| (a.setWidth 32 <<< 16) ||| c.setWidth 32 := by
      rw [BitVec.append_def, BitVec.append_def]
      simp [BitVec.shiftLeftZeroExtend_eq, BitVec.setWidth_or, BitVec.shiftLeft_or_distrib]

/-- ENCODE's format reserves no bit and takes a data operand (R66, R67). -/
theorem legalFor_encode (w : CommandWord) (d : List Byte) : LegalFor .encode w d :=
  ⟨BitVec.and_zero, .inl rfl⟩

theorem legalFor_decode_iff {w : CommandWord} (d : List Byte) (h : w.toNat / 2 ^ 24 = 0x20) :
    LegalFor .decode w d ↔ w = 0x20000000#32 :=
  (and_iff_left (.inl rfl)).trans (and_low24_eq_zero_iff h)

/-- The word of an ENCODE runs it (R70). -/
theorem issue_encodeWord_encode (a : Byte) (c : Half) (d : List Byte) (s : State) :
    issue (encodeWord (.encode a c d)) d s = exec (.encode a c d) s := by
  obtain ⟨hfield, -, -⟩ := Laws.WordFields.encode a c d
  have hopc : (encodeWord (.encode a c d)).toNat / 2 ^ 24 = Opcode.encode.value.toNat := by
    rw [← fieldOpc_toNat, hfield, Instr.opcode]
  rw [issue_of_legalFor hopc (legalFor_encode _ d)]
  simp [Opcode.assemble, encodeWord]

/-! ### The obligations -/

/-- Settles O26: a payload that can be framed and one that cannot are `execEncode`'s two ways to end, and the frame is
`framePrefix` with its checksum after it. -/
theorem encodePacksTheFrame : Obligations.EncodePacksTheFrame := by
  refine fun s a c d => ⟨fun hlen hcap p hp => ?_, fun h => execEncode_of_over a c h.symm, fun w hw => ?_⟩
  · rw [← framePrefix_eq_append] at hp
    subst hp
    rw [← buildFrame_eq_append]
    exact execEncode_of_fits a c hcap hlen
  · rw [hw, ← encodeWord_encode_eq_or a c d]
    exact issue_encodeWord_encode a c d s

/-- Settles O28: the checks fail or hold in the order of `readFrame_cases`, and one word of its opcode is legal. -/
theorem decodeChecksInOrder : Obligations.DecodeChecksInOrder := by
  refine fun s d => ⟨?_, fun w hopc => issue_by_legality hopc (legalFor_decode_iff d hopc) s⟩
  intro L rx code hL hrx hcode
  obtain rfl : L = declaredLength d := hL
  rw [← receivedChecksum_eq_append] at hrx
  rw [← receivedFrame_code_eq_append] at hcode
  subst hrx hcode
  rw [← receivedPrefix_eq_take, ← receivedFrame_payload_eq_take_drop]
  rcases Nat.lt_or_ge s.params.dataCap d.length with hover | hcap
  · rw [if_pos hover]
    exact execDecode_of_over hover
  rw [if_neg (not_lt.mpr hcap)]
  rcases readFrame_cases d with ⟨hr, hshort⟩ | ⟨hr, hlen, hdecl, hsum⟩ | ⟨hr, hlen, hdecl, hsum⟩
  · rw [if_pos hshort]
    exact execDecode_of_truncated hcap hr
  · rw [if_neg (by omega), if_pos hsum]
    exact execDecode_of_mismatch hcap hr
  · rw [if_neg (by omega), if_neg (not_not.mpr hsum)]
    cases hl : lookupIndex s.params.catalog (receivedFrame d).code with
    | none => exact execDecode_of_unknown hcap hr hl
    | some i => exact execDecode_of_known hcap hr hl

end Sys2Proof.Machine
end

section
/-!
PROOFS. The catalog and the payload dispatcher (spec/42_catalog_dispatch.md): the checks of R126 and the lookup in a
legal catalog (R127), the trim function and the integer assembly (R131, R133), the words of format K, and what the host
makes of the registers after a DISPATCH (R134, R135). Each outcome of LOOKUP and DISPATCH is the way its meaning ends
(Laws/Meanings.lean).
-/

namespace Sys2Proof.Machine

/-! ### Legal parameters -/

/-- The `divisor`, `width` and `length` checks of R126 on one entry, in words. -/
theorem kind_wf_iff (k : PayloadKind) :
    k.wf = true ↔ (∀ n, k = .fixed n → n ≤ 255) ∧
      ∀ width div unit, k = .scaled width div unit →
        1 ≤ div ∧ div ≤ 65535 ∧ (width = 2 ∨ width = 4) := by
  cases k <;> simp [PayloadKind.wf, and_assoc]

/-- The `unique` check passes when no code stands at two indices. -/
theorem codesDistinct_of_index {cat : List Entry}
    (h : ∀ (i j : Nat) (e e' : Entry), cat[i]? = some e → cat[j]? = some e' → e.code = e'.code → i = j) :
    Catalog.codesDistinct cat = true := by
  induction cat with
  | nil => rfl
  | cons a l ih =>
    simp only [Catalog.codesDistinct, Bool.and_eq_true, List.all_eq_true, bne_iff_ne]
    refine ⟨fun e he hc => ?_, ih fun i j e e' hi hj hc => ?_⟩
    · obtain ⟨j, hj⟩ := List.mem_iff_getElem?.mp he
      exact Nat.succ_ne_zero j (h (j + 1) 0 e a hj rfl hc)
    · exact Nat.succ.inj (h (i + 1) (j + 1) e e' hi hj hc)

/-- The checks that construction makes are those of R126 and R175. -/
theorem legalParams_iff_wf (p : Params) : LegalParams p ↔ p.wf = true := by
  rw [params_wf_iff]
  constructor
  · rintro ⟨hunique, hfixed, hscaled, hsize, hpad, hcap⟩
    exact ⟨⟨codesDistinct_of_index hunique,
      fun e he => (kind_wf_iff _).mpr ⟨hfixed e he, hscaled e he⟩, hsize⟩, hpad, hcap⟩
  · rintro ⟨⟨hunique, hkinds, hsize⟩, hpad, hcap⟩
    exact ⟨fun _ _ _ _ => codesDistinct_index hunique, fun e he => ((kind_wf_iff _).mp (hkinds e he)).1,
      fun e he => ((kind_wf_iff _).mp (hkinds e he)).2, hsize, hpad, hcap⟩

/-! ### Lookup in a legal catalog -/

/-- The code of an entry of a legal catalog is looked up at that entry (R127). -/
theorem lookupEntry_of_getElem? {p : Params} (hw : p.wf = true) {i : Nat} {e : Entry}
    (hi : p.catalog[i]? = some e) : lookupEntry p.catalog e.code = some (i, e) := by
  obtain ⟨⟨hunique, -, -⟩, -, -⟩ := (params_wf_iff p).mp hw
  cases hl : lookupEntry p.catalog e.code with
  | none => exact absurd rfl (lookupIndex_none (lookupEntry_none_iff.mp hl) e (List.mem_of_getElem? hi))
  | some je =>
    obtain ⟨-, hj, hc⟩ := lookupEntry_some hl
    obtain rfl : je.1 = i := codesDistinct_index hunique hj hi hc
    rw [Option.some.inj (hi.symm.trans hj)]

/-- A code that no entry has is looked up in vain (R127). -/
theorem lookupEntry_of_absent {cat : List Entry} {code : Half} (h : ∀ e ∈ cat, e.code ≠ code) :
    lookupEntry cat code = none := by
  apply lookupEntry_none_iff.mpr
  simpa [lookupIndex, List.findIdx?_eq_none_iff] using h

/-- An index of a legal catalog fits `RES_IDX` (R28). -/
theorem indexByte_toNat {p : Params} (hw : p.wf = true) {i : Nat} {e : Entry}
    (hi : p.catalog[i]? = some e) : (indexByte i).toNat = i := by
  obtain ⟨⟨-, -, hsize⟩, -, -⟩ := (params_wf_iff p).mp hw
  obtain ⟨hlt, -⟩ := List.getElem?_eq_some_iff.mp hi
  exact Nat.mod_eq_of_lt (by omega)

/-- A divisor of a legal catalog fits `RES_DIV` and is not 0 (R30, R126). -/
theorem divisor_toNat_and_ne_zero {p : Params} (hw : p.wf = true) {i : Nat} {e : Entry} (hi : p.catalog[i]? = some e)
    {width div : Nat} {unit : String} (hk : e.kind = .scaled width div unit) :
    (BitVec.ofNat 16 div).toNat = div ∧ BitVec.ofNat 16 div ≠ 0x0000#16 := by
  obtain ⟨-, -, hscaled, -⟩ := (legalParams_iff_wf p).mpr hw
  obtain ⟨hpos, hmax, -⟩ := hscaled e (List.mem_of_getElem? hi) width div unit hk
  have hdiv : (BitVec.ofNat 16 div).toNat = div := Nat.mod_eq_of_lt (by omega)
  refine ⟨hdiv, fun hzero => ?_⟩
  rw [hzero, BitVec.toNat_zero] at hdiv
  omega

/-! ### Trimming -/

/-- The trim function is Mathlib's drop from the right, of pad bytes. -/
theorem trim_eq_rdropWhile (pads m : List Byte) : trim pads m = m.rdropWhile (pads.contains ·) := rfl

/-! ### Integer assembly -/

/-- One more byte at the end of a big-endian number. -/
theorem toNat_append_byte {n : Nat} (x : BitVec n) (b : Byte) : (x ++ b).toNat = x.toNat * 256 + b.toNat := by
  rw [BitVec.toNat_append, ← Nat.shiftLeft_add_eq_or_of_lt b.isLt, Nat.shiftLeft_eq]

/-- As a signed number too: the sign is that of the bytes before it. -/
theorem toInt_append_byte {n : Nat} (x : BitVec (n + 1)) (b : Byte) : (x ++ b).toInt = x.toInt * 256 + b.toNat := by
  rw [BitVec.toInt_append, if_neg (by simp)]
  omega

/-- The top bit of a byte is its sign. -/
theorem toInt_byte (a : Byte) : a.toInt = (a.toNat : Int) - if 128 ≤ a.toNat then 256 else 0 := by
  rw [BitVec.toInt_eq_toNat_cond]
  split <;> split <;> omega

/-- A sequence of two bytes, as bits, sign-extended (R133). -/
theorem beSigned_two (a b : Byte) : beSigned [a, b] 2 = (a ++ b).signExtend 32 := by
  have hu : beUnsigned [a, b] = (a ++ b).toNat := by
    rw [toNat_append_byte]
    simp [beUnsigned]
  rw [beSigned, hu, BitVec.ofNat_toNat, BitVec.setWidth_eq]

/-- A sequence of four bytes fills `RES_INT` (R133). -/
theorem beSigned_four (a b c d : Byte) : beSigned [a, b, c, d] 4 = a ++ b ++ c ++ d := by
  have hu : beUnsigned [a, b, c, d] = (a ++ b ++ c ++ d).toNat := by
    rw [toNat_append_byte, toNat_append_byte, toNat_append_byte]
    simp [beUnsigned]
  rw [beSigned, hu, BitVec.ofNat_toNat, BitVec.setWidth_eq, BitVec.signExtend_eq]

/-! ### The words -/

/-- Format K (R64, R67): no reserved bit is set when w[23:16] is zero. -/
theorem and_bits23_16_eq_zero_iff (w : CommandWord) :
    w &&& 0x00FF0000#32 = 0#32 ↔ w.toNat / 2 ^ 16 % 2 ^ 8 = 0 := by
  have hfield : w &&& 0x00FF0000#32 = (w.extractLsb' 16 8).setWidth 32 <<< 16 := by
    ext i hi
    interval_cases i <;> simp
  rw [hfield, ← BitVec.toNat_inj]
  simp only [BitVec.toNat_shiftLeft, BitVec.toNat_setWidth, BitVec.extractLsb'_toNat, Nat.shiftRight_eq_div_pow,
    Nat.reducePow, Nat.shiftLeft_eq, Nat.mod_mul_mod, BitVec.toNat_ofNat, Nat.zero_mod]
  omega

theorem legalFor_lookup_iff (w : CommandWord) (d : List Byte) :
    LegalFor .lookup w d ↔ w.toNat / 2 ^ 16 % 2 ^ 8 = 0 ∧ d = [] :=
  and_congr (and_bits23_16_eq_zero_iff w) (by simp [Opcode.takesData])

theorem legalFor_dispatch_iff (w : CommandWord) (d : List Byte) :
    LegalFor .dispatch w d ↔ w.toNat / 2 ^ 16 % 2 ^ 8 = 0 :=
  (and_iff_left (.inl rfl)).trans (and_bits23_16_eq_zero_iff w)

/-- `CODE = w[15:0]` (R70). -/
theorem fieldCode_eq_setWidth (w : CommandWord) : fieldCode w = w.setWidth 16 := by
  apply BitVec.eq_of_toNat_eq
  simp [fieldCode]

/-! ### The host's view after a DISPATCH -/

/-- With a divisor there is a value, and it is the integer divided by the divisor (R134). -/
theorem value_of_divisor (x : BitVec 32) {d : Half} (h : d ≠ 0x0000#16) :
    ∃ q : Rat, value x d = some q ∧ q * (d.toNat : Rat) = (x.toInt : Rat) := by
  refine ⟨mkRat x.toInt d.toNat, if_neg h, ?_⟩
  have hd : (d.toNat : Rat) ≠ 0 := Nat.cast_ne_zero.mpr fun h0 => h (BitVec.eq_of_toNat_eq h0)
  rw [Rat.mkRat_eq_div, div_mul_cancel₀ _ hd]

/-- With a divisor there is a binary64 value (R134). -/
theorem value64_of_divisor (x : BitVec 32) {d : Half} (h : d ≠ 0x0000#16) : ∃ b, value64 x d = some b := by
  unfold value64
  rw [if_neg h]
  split
  · exact ⟨_, rfl⟩
  · exact ⟨_, rfl⟩

theorem sampleValue_stringResults (code : Half) (i : Nat) (text : List Byte) :
    sampleValue (stringResults code i text) = some (.text text) := rfl

theorem sampleValue_scaledResults (code : Half) (i width : Nat) {div : Nat} (d : List Byte)
    (h : BitVec.ofNat 16 div ≠ 0x0000#16) :
    ∃ q b, value (beSigned d width) (BitVec.ofNat 16 div) = some q ∧
      value64 (beSigned d width) (BitVec.ofNat 16 div) = some b ∧
      sampleValue (scaledResults code i width div d) = some (.number q b) := by
  obtain ⟨q, hq, -⟩ := value_of_divisor (beSigned d width) h
  obtain ⟨b, hb⟩ := value64_of_divisor (beSigned d width) h
  exact ⟨q, b, hq, hb, by simp [sampleValue, scaledResults, kindScaled, kindString, hq, hb]⟩

/-- The sample of a state with STATUS OK (R135). -/
theorem assembleSample_of_ok {t : State} {e : Entry} {v : SampleValue} (timestamp : Nat)
    (hok : t.status = 0x00#8) (he : readEntry t.res.idx.toNat t = some e) (hv : sampleValue t.res = some v) :
    assembleSample timestamp t = some
      { command := t.res.cmd, name := e.name, value := v, unit := entryUnit e, timestamp := timestamp } := by
  simp [assembleSample, Status.code, hok, he, hv]

@[simp] theorem payloadResults_idx (pads : List Byte) (code : Half) (i : Nat) (k : PayloadKind) (d : List Byte) :
    (payloadResults pads code i k d).idx = indexByte i := by
  cases k <;> rfl

/-- A DISPATCH that ends with OK has found an entry, and shows a payload of the entry's kind (R129). -/
theorem execDispatch_ok {code : Half} {d : List Byte} {s t : State} (h : execDispatch code d s = .next t)
    (hok : t.status = 0x00#8) :
    ∃ i e, lookupEntry s.params.catalog code = some (i, e) ∧
      t = { s with status := 0x00#8, res := payloadResults s.params.padBytes code i e.kind d } := by
  rcases Nat.lt_or_ge s.params.dataCap d.length with hover | hcap
  · obtain rfl := Host.Outcome.next.inj ((execDispatch_of_over hover).symm.trans h)
    exact absurd hok (by simp)
  cases hl : lookupEntry s.params.catalog code with
  | none =>
    obtain rfl := Host.Outcome.next.inj ((execDispatch_of_none hcap hl).symm.trans h)
    exact absurd hok (by simp)
  | some ie =>
    by_cases hk : d.length = schemaLength ie.2.kind
    · exact ⟨ie.1, ie.2, rfl, Host.Outcome.next.inj (h.symm.trans (execDispatch_of_some hcap hl hk))⟩
    · obtain rfl := Host.Outcome.next.inj ((execDispatch_of_length hcap hl hk).symm.trans h)
      exact absurd hok (by simp)

/-! ### The obligations -/

/-- Settles O2: `construct` asks `Params.wf`, which is `LegalParams`. -/
theorem onlyLegalParametersMakeAnInstance : Obligations.OnlyLegalParametersMakeAnInstance := by
  refine fun p => ⟨fun h => ⟨_, if_pos ((legalParams_iff_wf p).mp h), rfl⟩, fun h => if_neg ?_⟩
  rwa [← legalParams_iff_wf]

/-- Settles O35: the two kinds of entry and the absent code are `execLookup`'s ways to end. -/
theorem lookupReportsTheSchema : Obligations.LookupReportsTheSchema := by
  refine fun s hw => ⟨?_, ?_, fun code h => execLookup_of_none (lookupEntry_of_absent h), fun w d hopc => ?_⟩
  · rintro i ⟨code, name, kind⟩ n hi rfl
    exact execLookup_of_some (lookupEntry_of_getElem? hw hi)
  · rintro i ⟨code, name, kind⟩ width div unit hi rfl
    exact execLookup_of_some (lookupEntry_of_getElem? hw hi)
  · rw [← fieldCode_eq_setWidth]
    exact issue_by_legality hopc (legalFor_lookup_iff w d) s

/-- Settles O38: the checks fail or hold in the order of `execDispatch`, and w[23:16] decides a word's legality. -/
theorem dispatchChecksInOrder : Obligations.DispatchChecksInOrder := by
  refine fun s code d => ⟨?_, fun w hopc hcode => ?_⟩
  · rcases Nat.lt_or_ge s.params.dataCap d.length with hover | hcap
    · rw [if_pos hover]
      exact execDispatch_of_over hover
    rw [if_neg (not_lt.mpr hcap)]
    cases hl : lookupEntry s.params.catalog code with
    | none => exact execDispatch_of_none hcap hl
    | some ie =>
      obtain ⟨i, ⟨c, name, k⟩⟩ := ie
      by_cases hn : d.length = schemaLength k
      · refine (execDispatch_of_some hcap hl hn).trans ?_
        cases k <;> exact (if_neg (not_not.mpr hn)).symm
      · refine (execDispatch_of_length hcap hl hn).trans ?_
        cases k <;> exact (if_pos hn).symm
  · obtain rfl : fieldCode w = code := by
      rw [fieldCode_eq_setWidth]
      exact BitVec.eq_of_toNat_eq ((BitVec.toNat_setWidth ..).trans hcode)
    exact issue_by_legality hopc (legalFor_dispatch_iff w d) s

/-- Settles O36: in a legal catalog the code's entry is `i`, and its schema asks for `n` bytes. -/
theorem dispatchDecodesFixedStrings : Obligations.DispatchDecodesFixedStrings := by
  rintro s i ⟨code, name, kind⟩ n d hw hi rfl hcap
  have hl := lookupEntry_of_getElem? hw hi
  exact ⟨execDispatch_of_some hcap hl, execDispatch_of_length hcap hl⟩

/-- Settles O37: as O36, with the integer that `beSigned` puts together from the bytes. -/
theorem dispatchDecodesScaledIntegers : Obligations.DispatchDecodesScaledIntegers := by
  rintro s i ⟨code, name, kind⟩ width div unit d hw hi rfl hcap
  have hl := lookupEntry_of_getElem? hw hi
  refine ⟨fun hlen => ⟨beSigned d width, execDispatch_of_some hcap hl hlen, ?_, ?_, ?_⟩,
    execDispatch_of_length hcap hl⟩
  · rintro a b rfl
    subst hlen
    exact (congrArg _ (beSigned_two a b)).trans (BitVec.toInt_signExtend_of_le (by decide))
  · rintro a b c d rfl
    subst hlen
    exact beSigned_four a b c d
  · obtain ⟨hdiv, hne⟩ := divisor_toNat_and_ne_zero hw hi rfl
    obtain ⟨q, hq, hmul⟩ := value_of_divisor (beSigned d width) hne
    exact ⟨q, hq, hdiv ▸ hmul⟩

/-- Settles O39: dropping from the right leaves the run it takes, and stops at a byte that is no pad. -/
theorem trimRemovesTheLongestPadRun : Obligations.TrimRemovesTheLongestPadRun := by
  intro pads m
  rw [trim_eq_rdropWhile]
  refine ⟨⟨_, List.rdropWhile_append_rtakeWhile.symm, fun b hb => ?_⟩, fun b hlast hpad => ?_⟩
  · exact List.contains_iff_mem.mp (List.mem_rtakeWhile_imp hb)
  · obtain ⟨hne, rfl⟩ := List.mem_getLast?_eq_getLast hlast
    exact List.rdropWhile_last_not _ _ hne (List.contains_iff_mem.mpr hpad)

/-- Settles O40: the first byte carries the sign, each later byte is unsigned. -/
theorem integersAreBigEndianTwosComplement : Obligations.IntegersAreBigEndianTwosComplement := by
  refine ⟨fun a b => ?_, fun a b c d => ?_⟩
  · rw [beSigned_two, BitVec.toInt_signExtend_of_le (by decide), toInt_append_byte, toInt_byte]
    split <;> omega
  · rw [beSigned_four, toInt_append_byte, toInt_append_byte, toInt_append_byte, toInt_byte]
    split <;> omega

/-- Settles O42: `RES_IDX` leads the host back to the entry DISPATCH found, and the registers hold a value of the
entry's kind. -/
theorem sampleAfterDispatch : Obligations.SampleAfterDispatch := by
  intro s t code d timestamp hw hexec hok
  obtain ⟨i, e, hl, rfl⟩ := execDispatch_ok hexec hok
  obtain ⟨-, hi, hc⟩ := lookupEntry_some hl
  have hmem := List.mem_of_getElem? hi
  have hread : s.params.catalog[(payloadResults s.params.padBytes code i e.kind d).idx.toNat]? = some e := by
    rwa [payloadResults_idx, indexByte_toNat hw hi]
  cases hk : e.kind with
  | fixed n =>
    rw [hk] at hread
    exact ⟨e, _, hmem, hc, assembleSample_of_ok timestamp rfl hread (sampleValue_stringResults ..),
      fun _ => ⟨rfl, by simp [entryUnit, hk]⟩, nofun, .inl rfl⟩
  | scaled width div unit =>
    rw [hk] at hread
    obtain ⟨q, b, hq, hb, hv⟩ := sampleValue_scaledResults code i width d (divisor_toNat_and_ne_zero hw hi hk).2
    exact ⟨e, _, hmem, hc, assembleSample_of_ok timestamp rfl hread hv, nofun,
      fun _ => ⟨q, b, hq, hb, rfl⟩, .inr rfl⟩

end Sys2Proof.Machine
end

section
/-!
PROOFS. The statuses (spec/60_exceptions.md): every command completes (R159) with one of the seven codes (R156), the one
of the first cause in the order of R161, and records what R157 lists. The proof of R161 goes down the causes in its
order, with the meaning's one way to end at each of them.
-/

namespace Sys2Proof.Machine

/-! ### Legal words -/

theorem legalFor_of_not_illegalWord {w : CommandWord} {op : Opcode} {d : List Byte}
    (h : w.toNat / 2 ^ 24 = op.value.toNat) (hl : ¬ illegalWord w d = true) : LegalFor op w d := by
  rw [illegalWord_of_assigned (ofValue_fieldOpc h)] at hl
  simpa [LegalFor, List.isEmpty_iff, imp_iff_not_or, or_comm] using hl

/-- A legal word runs the command put together from it (R70). -/
theorem issue_of_not_illegalWord {w : CommandWord} {op : Opcode} {d : List Byte}
    (h : w.toNat / 2 ^ 24 = op.value.toNat) (hl : ¬ illegalWord w d = true) (s : State) :
    issue w d s = exec (op.assemble w d) s :=
  issue_of_legalFor h (legalFor_of_not_illegalWord h hl) s

/-- A legal word has an assigned opcode (R68). -/
theorem exists_opcode_of_not_illegalWord {w : CommandWord} {d : List Byte} (hl : ¬ illegalWord w d = true) :
    ∃ op : Opcode, w.toNat / 2 ^ 24 = op.value.toNat := by
  cases hop : Opcode.ofValue? (fieldOpc w) with
  | none => exact absurd (illegalWord_of_unassigned hop d) hl
  | some op => exact ⟨op, by rw [value_of_ofValue hop, fieldOpc_toNat]⟩

theorem value_toNat_inj {op op' : Opcode} (h : op.value.toNat = op'.value.toNat) : op = op' := by
  have hv : op.value = op'.value := BitVec.eq_of_toNat_eq h
  rw [← Option.some.injEq, ← ofValue_value op, hv, ofValue_value]

/-! ### Ending with a status -/

/-- The command completes in a state of which `P` holds, and `CRC` is as it was unless the status is OK. -/
def EndsWith (o : Outcome) (s : State) (P : State → Prop) : Prop :=
  ∃ t, o = .next t ∧ (t.status ≠ 0x00#8 → t.crc = s.crc) ∧ P t

/-- One cause of the order of R161: where it applies, it decides; where not, the later ones do. -/
theorem EndsWith.ite {o : Outcome} {s : State} {c : Prop} {_ : Decidable c} {P Q : State → Prop}
    (hP : c → EndsWith o s P) (hQ : ¬ c → EndsWith o s Q) : EndsWith o s fun t => if c then P t else Q t := by
  by_cases hc : c
  · simpa only [if_pos hc] using hP hc
  · simpa only [if_neg hc] using hQ hc

/-- An operand over `DATA_CAP`, and a payload of more than 255 bytes that was to be framed (R101), end a legal word with
OVERSIZE: only a command that takes a data operand can be given one. -/
theorem exec_assemble_of_oversize {w : CommandWord} {op : Opcode} {d : List Byte} {s : State} (hl : LegalFor op w d)
    (h : s.params.dataCap < d.length ∨ op = .encode ∧ 255 < d.length) :
    exec (op.assemble w d) s = .next { s with status := 0x05#8, res := Results.reset } := by
  obtain ⟨-, hdata⟩ := hl
  have hcap (hop : op ≠ .encode) : s.params.dataCap < d.length := h.resolve_right fun he => hop he.1
  have hne (hop : op ≠ .encode) : d ≠ [] := List.ne_nil_of_length_pos (Nat.zero_lt_of_lt (hcap hop))
  cases op with
  | crcClear | crcByte | crcRead | lookup => exact absurd (hdata.resolve_left nofun) (hne nofun)
  | checksum => exact execChecksum_of_over (hcap nofun)
  | encode => exact execEncode_of_over _ _ (h.imp_right And.right)
  | decode => exact execDecode_of_over (hcap nofun)
  | dispatch => exact execDispatch_of_over (hcap nofun)

/-- The causes of DECODE in the order of R161, for an operand that fits. -/
theorem execDecode_endsWith_firstCause {d : List Byte} {s : State} (hcap : d.length ≤ s.params.dataCap) :
    EndsWith (execDecode d s) s fun t =>
      if d.length < 4 ∨ d.length < declaredLength d + 6 then t.status = 0x01#8 ∧ t.res = Results.reset
      else if receivedChecksum d ≠ checksum (receivedPrefix d) then t.status = 0x02#8 ∧ t.res = Results.reset
      else if lookupIndex s.params.catalog (receivedFrame d).code = none then
        t.status = 0x03#8 ∧ t.res = { Results.reset with
          cmd := (receivedFrame d).code, addr := byteAt d 0, len := byteAt d 3, crc := checksum (receivedPrefix d) }
      else t.status = 0x00#8 := by
  rcases readFrame_cases d with ⟨hr, hshort⟩ | ⟨hr, hlen, hdecl, hsum⟩ | ⟨hr, hlen, hdecl, hsum⟩
  · refine .ite (fun _ => ?_) fun h => absurd hshort h
    exact ⟨_, execDecode_of_truncated hcap hr, fun _ => rfl, rfl, rfl⟩
  · refine .ite (fun _ => by omega) fun _ => .ite (fun _ => ?_) fun h => absurd hsum h
    exact ⟨_, execDecode_of_mismatch hcap hr, fun _ => rfl, rfl, rfl⟩
  · refine .ite (fun _ => by omega) fun _ => .ite (fun h => absurd hsum h) fun _ =>
      .ite (fun hnone => ?_) fun hsome => ?_
    · exact ⟨_, execDecode_of_unknown hcap hr hnone, fun _ => rfl, rfl, hsum ▸ rfl⟩
    · obtain ⟨i, hi⟩ := Option.ne_none_iff_exists'.mp hsome
      exact ⟨_, execDecode_of_known hcap hr hi, fun _ => rfl, rfl⟩

/-- A legal word of a CRC command, of CHECKSUM or of ENCODE, with an operand that fits, has no other cause to fail. -/
theorem exec_assemble_endsWith_ok {w : CommandWord} {op : Opcode} {d : List Byte} {s : State}
    (hcap : d.length ≤ s.params.dataCap) (hlen : op = .encode → d.length ≤ 255) (hd : op ≠ .decode)
    (hl : op ≠ .lookup) (hp : op ≠ .dispatch) :
    EndsWith (exec (op.assemble w d) s) s fun t => t.status = 0x00#8 := by
  cases op with
  | crcClear | crcByte | crcRead => exact ⟨_, rfl, fun h => absurd rfl h, rfl⟩
  | checksum => exact ⟨_, execChecksum_of_fits hcap, fun h => absurd rfl h, rfl⟩
  | encode => exact ⟨_, execEncode_of_fits _ _ hcap (hlen rfl), fun _ => rfl, rfl⟩
  | decode => exact absurd rfl hd
  | lookup => exact absurd rfl hl
  | dispatch => exact absurd rfl hp

/-! ### The obligations -/

/-- Settles O5: the step is `issue`, which answers a next state with the same constants and script. -/
theorem everyCommandCompletes : Obligations.EveryCommandCompletes := by
  intro s w d rest hw hs
  obtain ⟨c, e, r, ht⟩ := issue_answers w d { s with script := rest }
  exact ⟨_, (step_cons hs hw).trans ht, rfl, hw⟩

/-- Settles O45: every answer writes the code of a status, and a code is read back as the status it came from. -/
theorem statusIsAnAssignedCode : Obligations.StatusIsAnAssignedCode := by
  refine ⟨fun e => by cases e <;> rfl, fun w d s => ?_⟩
  obtain ⟨c, e, r, ht⟩ := issue_answers w d s
  exact ⟨_, e, ht, ofCode_code e, rfl, Nat.lt_succ_of_le (status_code_le e)⟩

/-- Settles O44: down the causes of R161, in its order. -/
theorem statusHasTheFirstCause : Obligations.StatusHasTheFirstCause := by
  rintro w d s _ _ _ rfl rfl rfl
  refine EndsWith.ite (fun hillegal => ?illegal) fun hlegal => EndsWith.ite (fun hover => ?oversize) fun hfits => ?_
  case illegal => exact ⟨_, (illegalWordsCompleteWithIllegalCommand w d s).1 hillegal, fun _ => rfl, rfl, rfl⟩
  case oversize =>
    obtain ⟨op, hop⟩ := exists_opcode_of_not_illegalWord hlegal
    have hcause : s.params.dataCap < d.length ∨ op = .encode ∧ 255 < d.length :=
      hover.imp_right (And.imp_left fun hopc => value_toNat_inj (hop.symm.trans hopc))
    rw [issue_of_not_illegalWord hop hlegal,
      exec_assemble_of_oversize (legalFor_of_not_illegalWord hop hlegal) hcause]
    exact ⟨_, rfl, fun _ => rfl, rfl, rfl⟩
  have hcap : d.length ≤ s.params.dataCap := not_lt.mp fun h => hfits (.inl h)
  refine EndsWith.ite (fun hopc => ?decode) fun hdecode =>
    EndsWith.ite (fun hopc => hopc.elim (fun hopc => ?lookup) fun hopc => ?dispatch) fun hcatalog => ?others
  case decode =>
    rw [issue_of_not_illegalWord (op := .decode) hopc hlegal]
    have h := execDecode_endsWith_firstCause hcap
    rw [receivedChecksum_eq_append, receivedPrefix_eq_take, receivedFrame_code_eq_append] at h
    exact h
  case lookup =>
    rw [issue_of_not_illegalWord (op := .lookup) hopc hlegal, ← fieldCode_eq_setWidth]
    cases hl : lookupEntry s.params.catalog (fieldCode w) with
    | none => exact ⟨_, execLookup_of_none hl, fun _ => rfl, rfl, rfl⟩
    | some ie =>
      refine EndsWith.ite (fun h => by omega) fun _ => ?_
      exact ⟨_, execLookup_of_some hl, fun _ => rfl, rfl⟩
  case dispatch =>
    rw [issue_of_not_illegalWord (op := .dispatch) hopc hlegal, ← fieldCode_eq_setWidth]
    cases hl : lookupEntry s.params.catalog (fieldCode w) with
    | none => exact ⟨_, execDispatch_of_none hcap hl, fun _ => rfl, rfl, rfl⟩
    | some ie =>
      refine EndsWith.ite (fun h => ?_) fun h => ?_
      · exact ⟨_, execDispatch_of_length hcap hl h.2, fun _ => rfl, rfl, rfl⟩
      · exact ⟨_, execDispatch_of_some hcap hl (not_not.mp (not_and.mp h hopc)), fun _ => rfl, rfl⟩
  case others =>
    obtain ⟨op, hop⟩ := exists_opcode_of_not_illegalWord hlegal
    rw [issue_of_not_illegalWord hop hlegal]
    refine exec_assemble_endsWith_ok hcap ?_ ?_ ?_ ?_ <;> rintro rfl
    · exact not_lt.mp fun h => hfits (.inr ⟨hop, h⟩)
    · exact hdecode hop
    · exact hcatalog (.inl hop)
    · exact hcatalog (.inr hop)

end Sys2Proof.Machine
end

section
/-!
PROOFS. Reset (spec/70_reset_and_hazards.md): construction answers `State.resetWith` (R175), the reset input `applyReset`
(R176, R177), and in both every register is at its reset value.
-/

namespace Sys2Proof.Machine

/-- The nine result registers are at their reset values together, as they are reset together (R32). -/
theorem registersAtReset_of_res_reset {s : State} (hcrc : s.crc = 0x0000#16) (hstatus : s.status = 0x00#8)
    (hres : s.res = Results.reset) : RegistersAtReset s := by
  simp [RegistersAtReset, hcrc, hstatus, hres]

theorem resetWith_registersAtReset (p : Params) : RegistersAtReset (State.resetWith p) :=
  registersAtReset_of_res_reset (resetWith_crc p) (resetWith_status p) (resetWith_res p)

theorem applyReset_registersAtReset (s : State) : RegistersAtReset (applyReset s) :=
  registersAtReset_of_res_reset (applyReset_crc s) (applyReset_status s) (applyReset_res s)

theorem construct_of_wf {p : Params} (hw : p.wf = true) : construct p = .next (State.resetWith p) :=
  if_pos hw

/-- The step that takes the reset input, between two commands (R176). -/
theorem step_reset {s : State} {rest : List HostAction} (hs : s.script = .reset :: rest) (hw : s.params.wf = true) :
    step s = .next (applyReset { s with script := rest }) :=
  step_cons hs hw

/-! ### The obligation -/

/-- Settles O1: construction ends in `State.resetWith` and the reset input in `applyReset`, which keeps the constants and
the rest of the script. -/
theorem resetGivesEveryRegisterItsValue : Obligations.ResetGivesEveryRegisterItsValue := by
  refine ⟨fun p hw => ?construction, fun s rest hw hs => ?resetInput⟩
  case construction =>
    exact ⟨_, construct_of_wf hw, resetWith_params p, resetWith_registersAtReset p⟩
  case resetInput =>
    exact ⟨_, step_reset hs hw, applyReset_registersAtReset _, applyReset_params _, applyReset_script _⟩

end Sys2Proof.Machine
end

section
/-!
PROOFS. Decode and encode (spec/30_encoding.md section 2): a command's word has its fields in place and no reserved bit
set (the family `WordFields`), so the decoder reads the command back; and a word the decoder accepts is its opcode and its
fields, zero where its format says so, so the encoder writes that word again.
-/

namespace Sys2Proof.Machine

/-! ### From the command to its word and back -/

/-- A word with the opcode's OPC that is legal for it decodes to the command put together from it (R70). -/
theorem decode_of_legalFor {w : CommandWord} {op : Opcode} {d : List Byte} (hopc : fieldOpc w = op.value)
    (hl : LegalFor op w d) : decode w d = .ok (op.assemble w d) := by
  obtain ⟨hmask, hdata⟩ := hl
  rcases hdata with hdata | rfl <;> simp [decode, *]

/-- The family `WordFields`, for every command at once. -/
theorem wordFields_statement (i : Instr) : Laws.WordFields.Statement i := by
  cases i with
  | crcClear => exact Laws.WordFields.crcClear
  | crcByte b => exact Laws.WordFields.crcByte b
  | crcRead => exact Laws.WordFields.crcRead
  | checksum d => exact Laws.WordFields.checksum d
  | encode a c d => exact Laws.WordFields.encode a c d
  | decode d => exact Laws.WordFields.decode d
  | lookup c => exact Laws.WordFields.lookup c
  | dispatch c d => exact Laws.WordFields.dispatch c d

theorem legalFor_encodeWord (i : Instr) : LegalFor i.opcode (encodeWord i) i.data := by
  obtain ⟨-, hmask, hdata⟩ := wordFields_statement i
  refine ⟨hmask, ?_⟩
  cases h : i.opcode.takesData
  · exact .inr (hdata h)
  · exact .inl rfl

/-- The operands are read back from the word's fields (R70). -/
theorem assemble_encodeWord (i : Instr) : i.opcode.assemble (encodeWord i) i.data = i := by
  cases i <;> simp [Instr.opcode, Instr.data, Opcode.assemble, encodeWord]

theorem decode_encodeWord (i : Instr) : decode (encodeWord i) i.data = .ok i := by
  obtain ⟨hopc, -, -⟩ := wordFields_statement i
  rw [decode_of_legalFor hopc (legalFor_encodeWord i), assemble_encodeWord]

/-! ### From the word to its command and back -/

/-- What a word that decodes to a command is: a legal word of an assigned opcode. -/
theorem decode_ok {w : CommandWord} {d : List Byte} {i : Instr} (h : decode w d = .ok i) :
    ∃ op : Opcode, fieldOpc w = op.value ∧ LegalFor op w d ∧ i = op.assemble w d := by
  have hlegal : ¬ illegalWord w d = true := fun hill => by
    obtain ⟨e, he⟩ := decode_of_illegalWord hill
    rw [he] at h
    cases h
  obtain ⟨op, hop⟩ := exists_opcode_of_not_illegalWord hlegal
  have hopc : fieldOpc w = op.value := BitVec.eq_of_toNat_eq ((fieldOpc_toNat w).trans hop)
  have hl := legalFor_of_not_illegalWord hop hlegal
  exact ⟨op, hopc, hl, Except.ok.inj (h.symm.trans (decode_of_legalFor hopc hl))⟩

/-- A word is its four bytes (R64). -/
theorem commandWord_bytes (w : CommandWord) :
    commandWord (fieldOpc w) (fieldAddr w) (w.extractLsb' 8 8) (fieldByte w) = w := by
  unfold commandWord fieldOpc fieldAddr fieldByte
  rw [BitVec.extractLsb'_append_extractLsb'_eq_extractLsb' (by rfl),
    BitVec.extractLsb'_append_extractLsb'_eq_extractLsb' (by rfl),
    BitVec.extractLsb'_append_extractLsb'_eq_extractLsb' (by rfl), BitVec.extractLsb'_eq_self]

/-- A word is its first two bytes and the two of CODE (R64, R70). -/
theorem commandWord_fieldCode (w : CommandWord) :
    commandWord (fieldOpc w) (fieldAddr w) ((fieldCode w).extractLsb' 8 8) ((fieldCode w).extractLsb' 0 8) = w := by
  have hhi : (fieldCode w).extractLsb' 8 8 = w.extractLsb' 8 8 := by
    ext i hi
    simp [fieldCode]
  have hlo : (fieldCode w).extractLsb' 0 8 = fieldByte w := by
    ext i hi
    simp [fieldCode, fieldByte]
  rw [hhi, hlo, commandWord_bytes]

/-- Format B leaves the two bytes between OPC and BYTE zero (R67). -/
theorem middle_bytes_eq_zero {w : CommandWord} (h : w &&& 0x00FFFF00#32 = 0#32) :
    fieldAddr w = 0#8 ∧ w.extractLsb' 8 8 = 0#8 := by
  have hbits := (and_bits23_8_eq_zero_iff w).mp h
  constructor <;> apply BitVec.eq_of_toNat_eq <;>
    simp [fieldAddr, Nat.shiftRight_eq_div_pow] <;> omega

/-- Format K leaves the byte between OPC and CODE zero (R67). -/
theorem fieldAddr_eq_zero {w : CommandWord} (h : w &&& 0x00FF0000#32 = 0#32) : fieldAddr w = 0#8 := by
  have hbits := (and_bits23_16_eq_zero_iff w).mp h
  apply BitVec.eq_of_toNat_eq
  simpa [fieldAddr, Nat.shiftRight_eq_div_pow] using hbits

/-- The command put together from a word without a reserved bit has that word. -/
theorem encodeWord_assemble {w : CommandWord} {op : Opcode} (hopc : fieldOpc w = op.value)
    (hmask : w &&& op.format.reservedMask = 0#32) (d : List Byte) : encodeWord (op.assemble w d) = w := by
  have hnum : w.toNat / 2 ^ 24 = op.value.toNat := by rw [← fieldOpc_toNat, hopc]
  have hbytes := commandWord_bytes w
  have hcode := commandWord_fieldCode w
  rw [hopc] at hbytes hcode
  cases op with
  | crcClear | crcRead | checksum | decode => exact ((and_low24_eq_zero_iff hnum).mp hmask).symm
  | crcByte =>
    obtain ⟨haddr, hhi⟩ := middle_bytes_eq_zero hmask
    rwa [haddr, hhi] at hbytes
  | encode => exact hcode
  | lookup | dispatch => rwa [fieldAddr_eq_zero hmask] at hcode

/-- The command hands over the data operand it was put together with (R66). -/
theorem data_assemble {op : Opcode} {d : List Byte} (h : op.takesData = true ∨ d = []) (w : CommandWord) :
    (op.assemble w d).data = d := by
  cases op with
  | crcClear | crcByte | crcRead | lookup => exact (h.resolve_left nofun).symm
  | checksum | encode | decode | dispatch => rfl

/-! ### The obligations -/

/-- Settles O10: a command's word is legal for its opcode, and its fields give the operands back. -/
theorem decodeOfEncodeIsTheCommand : Obligations.DecodeOfEncodeIsTheCommand := decode_encodeWord

/-- Settles O11: an accepted word has an assigned opcode and no reserved bit, so its fields are all there is to it. -/
theorem encodeOfDecodeIsTheWord : Obligations.EncodeOfDecodeIsTheWord := by
  intro w d i h
  obtain ⟨op, hopc, ⟨hmask, hdata⟩, rfl⟩ := decode_ok h
  exact Prod.ext (encodeWord_assemble hopc hmask d) (data_assemble hdata w)

/-- Settles O13: one word of each opcode, run through the decoder. -/
theorem exampleWordsDecode : Obligations.ExampleWordsDecode :=
  ⟨rfl, rfl, rfl, rfl, rfl, rfl, rfl, rfl⟩

end Sys2Proof.Machine
end

section
/-!
PROOFS. Steps and runs (spec/70_reset_and_hazards.md, spec/20_memory.md section 4): every action of a host completes and
writes registers alone, so a step keeps the constants, a run is safe and is what its transcript says, and actions on
different blocks of a bank commute. The invariant: each set of result registers a command writes is of one of three
shapes, and each shape meets it.
-/

namespace Sys2Proof.Machine

/-! ### One step -/

/-- The reset input too leaves the constants and the script alone (R177). -/
theorem perform_answers (a : HostAction) (s : State) : Answers (perform a s) s := by
  cases a with
  | command w d => exact issue_answers w d s
  | reset => exact ⟨0x0000#16, .ok, Results.reset, rfl⟩

/-- The ways a step answers a next state. -/
theorem step_next_cases {s t : State} (h : step s = .next t) :
    s.params.wf = true ∧ ((s.script = [] ∧ t = s) ∨
      ∃ a rest, s.script = a :: rest ∧ perform a { s with script := rest } = .next t) := by
  cases hw : s.params.wf with
  | false => simp [step_refused hw] at h
  | true =>
    refine ⟨rfl, ?_⟩
    cases hs : s.script with
    | nil => exact .inl ⟨rfl, (Host.Outcome.next.inj ((step_nil hs hw).symm.trans h)).symm⟩
    | cons a rest => exact .inr ⟨a, rest, rfl, (step_cons hs hw).symm.trans h⟩

/-- With legal parameters a step completes, takes one action at most, and keeps the constants. -/
theorem step_completes {s : State} (hw : s.params.wf = true) :
    ∃ t, step s = .next t ∧ t.params = s.params ∧ t.script = s.script.tail := by
  cases hs : s.script with
  | nil => exact ⟨s, step_nil hs hw, rfl, hs⟩
  | cons a rest =>
    obtain ⟨c, e, r, ht⟩ := perform_answers a { s with script := rest }
    exact ⟨_, (step_cons hs hw).trans ht, rfl, rfl⟩

/-- The step that takes a command decoded from its word. -/
theorem step_of_decode {s : State} {w : CommandWord} {d : List Byte} {rest : List HostAction} {i : Instr}
    (hw : s.params.wf = true) (hs : s.script = .command w d :: rest) (hd : decode w d = .ok i) :
    step s = exec i { s with script := rest } :=
  (step_cons hs hw).trans (issue_of_decode hd _)

/-- The step that takes a command the host issued by its word. -/
theorem step_ofInstr {s : State} {i : Instr} {rest : List HostAction} (hw : s.params.wf = true)
    (hs : s.script = HostAction.ofInstr i :: rest) : step s = exec i { s with script := rest } :=
  step_of_decode hw hs (decode_encodeWord i)

theorem safeRun_of_wf (k : Nat) {s : State} (hw : s.params.wf = true) : SafeRun k s := by
  induction k generalizing s with
  | zero => exact ⟨s, core_run_zero s⟩
  | succ k ih =>
    obtain ⟨t, ht, hp, -⟩ := step_completes hw
    obtain ⟨u, hu⟩ := ih (s := t) (hp ▸ hw)
    exact ⟨u, (core_run_succ k ht).trans hu⟩

/-! ### A run and its transcript -/

/-- A command does not read the script, and leaves it alone (R180). -/
theorem issue_withScript {w : CommandWord} {d : List Byte} {s t : State} (h : issue w d s = .next t)
    (l : List HostAction) : issue w d { s with script := l } = .next { t with script := l } := by
  cases hw : decode w d with
  | error e =>
    rw [issue_of_reject hw] at h ⊢
    obtain rfl := Host.Outcome.next.inj h
    rfl
  | ok i =>
    rw [issue_of_decode hw] at h ⊢
    obtain ⟨e, r, -, hr⟩ := exec_answers_from_constants_and_crc i s.params s.crc
    obtain rfl := Host.Outcome.next.inj ((hr s rfl rfl).symm.trans h)
    exact hr _ rfl rfl

theorem perform_withScript {a : HostAction} {s t : State} (h : perform a s = .next t) (l : List HostAction) :
    perform a { s with script := l } = .next { t with script := l } := by
  cases a with
  | command w d => exact issue_withScript h l
  | reset =>
    obtain rfl := Host.Outcome.next.inj h
    rfl

theorem act_of_wf {s : State} (hw : s.params.wf = true) (a : HostAction) : act a s = perform a s :=
  if_pos hw

/-- The transcript of the actions `l` ends where as many steps end from a state whose script is `l` (R188). -/
theorem runActions_eq_core_run (l : List HostAction) {s : State} (hw : s.params.wf = true) (hs : s.script = []) :
    ∃ u, runActions l s = .next u ∧ Sys2Proof.core.run l.length { s with script := l } = .next u.last ∧
      u.readings.length = l.length ∧ u.last.script = [] ∧ u.last.params = s.params := by
  induction l generalizing s with
  | nil =>
    have hsame : { s with script := [] } = s := by rw [← hs]
    exact ⟨⟨[], s⟩, rfl, congrArg _ hsame, rfl, hs, rfl⟩
  | cons a rest ih =>
    obtain ⟨c, e, r, ht⟩ := perform_answers a s
    obtain ⟨u, hu, hrun, hlen, hscript, hparams⟩ :=
      ih (s := { s with crc := c, status := Status.code e, res := r }) hw hs
    refine ⟨⟨⟨Status.code e, r⟩ :: u.readings, u.last⟩, ?_, ?_, congrArg (· + 1) hlen, hscript, hparams⟩
    · rw [runActions, act_of_wf hw, ht]
      simp only [andThen, hu]
    · have hstep := (step_cons (s := { s with script := a :: rest }) rfl hw).trans (perform_withScript ht rest)
      exact (core_run_succ _ hstep).trans hrun

/-! ### Several blocks -/

/-- An action that completes puts its answer at its own place of the bank. -/
theorem actAt_of_getElem? {bank : Bank} {k : Nat} {a : HostAction} {s t : State} (hk : bank[k]? = some s)
    (h : act a s = .next t) : actAt k a bank = .next (bank.set k t) := by
  simp [actAt, hk, h, andThen]

/-- Every block of a bank with legal parameters takes an action and completes it. -/
theorem act_completes {bank : Bank} (hw : ∀ s ∈ bank, s.params.wf = true) {k : Nat} (hk : k < bank.length)
    (a : HostAction) : ∃ s t, bank[k]? = some s ∧ act a s = .next t := by
  obtain ⟨c, e, r, ht⟩ := perform_answers a bank[k]
  exact ⟨bank[k], _, List.getElem?_eq_getElem hk, (act_of_wf (hw _ (List.getElem_mem hk)) a).trans ht⟩

/-! ### The registers of an entry -/

/-- `RES_DIV` of a schema (R30): its divisor, 0 where it has none. -/
def schemaDivisor : PayloadKind → Half
  | .fixed _ => 0x0000#16
  | .scaled _ div _ => BitVec.ofNat 16 div

section
variable (pads : List Byte) (code : Half) (i : Nat) (k : PayloadKind) (d : List Byte)

@[simp] theorem schemaResults_data : (schemaResults code i k).data = [] := by cases k <;> rfl
@[simp] theorem schemaResults_idx : (schemaResults code i k).idx = indexByte i := by cases k <;> rfl
@[simp] theorem schemaResults_cmd : (schemaResults code i k).cmd = code := by cases k <;> rfl
@[simp] theorem schemaResults_kind : (schemaResults code i k).kind = schemaKind k := by cases k <;> rfl
@[simp] theorem schemaResults_div : (schemaResults code i k).div = schemaDivisor k := by cases k <;> rfl

@[simp] theorem payloadResults_cmd : (payloadResults pads code i k d).cmd = code := by cases k <;> rfl
@[simp] theorem payloadResults_kind : (payloadResults pads code i k d).kind = schemaKind k := by cases k <;> rfl
@[simp] theorem payloadResults_div : (payloadResults pads code i k d).div = schemaDivisor k := by cases k <;> rfl

/-- A decoded payload shows no more bytes than it had (R131). -/
theorem payloadResults_data_length_le : (payloadResults pads code i k d).data.length ≤ d.length := by
  cases k with
  | fixed n => exact trim_length_le pads d
  | scaled width div unit => exact Nat.zero_le _

end

/-! ### The invariant -/

/-- Results that show no payload, string or number (R157). -/
def ShowsNothing (r : Results) : Prop :=
  r.data = [] ∧ r.kind = kindNone ∧ r.int = 0#32 ∧ r.div = 0x0000#16

section
variable {t : State} (hw : t.params.wf = true)
include hw

/-- Registers that show nothing meet the invariant after any status. -/
theorem inv_of_showsNothing (e : Status) (hst : t.status = e.code) (hr : ShowsNothing t.res) : Inv t := by
  obtain ⟨hdata, hkind, -, hdiv⟩ := id hr
  exact {
    params_wf := hw
    status_assigned := hst ▸ status_code_le e
    kind_assigned := by simp [hkind, kindNone]
    data_fits := by simp [hdata]
    error_shows_nothing := fun _ => hr
    kind_has_entry := fun h => absurd hkind h
    divisor_iff_scaled := by simp [hkind, hdiv, kindNone, kindScaled] }

/-- Data without a kind: what ENCODE and DECODE show. -/
theorem inv_of_data (hok : t.status = Status.ok.code) (hdata : t.res.data.length ≤ t.params.dataCap)
    (hkind : t.res.kind = kindNone) (hdiv : t.res.div = 0x0000#16) : Inv t where
  params_wf := hw
  status_assigned := hok ▸ status_code_le .ok
  kind_assigned := by simp [hkind, kindNone]
  data_fits := hdata
  error_shows_nothing h := absurd hok h
  kind_has_entry h := absurd hkind h
  divisor_iff_scaled := by simp [hkind, hdiv, kindNone, kindScaled]

/-- In a legal catalog a schema has a divisor exactly when it is Scaled (R126). -/
theorem schemaDivisor_ne_zero_iff {i : Nat} {e : Entry} (hi : t.params.catalog[i]? = some e) :
    schemaDivisor e.kind ≠ 0x0000#16 ↔ schemaKind e.kind = kindScaled := by
  cases hk : e.kind with
  | fixed n => simp [schemaDivisor, schemaKind, kindString, kindScaled]
  | scaled width div unit =>
    obtain ⟨-, hdiv⟩ := divisor_toNat_and_ne_zero hw hi hk
    simpa [schemaDivisor, schemaKind] using hdiv

/-- A kind with its entry: what LOOKUP and DISPATCH show. -/
theorem inv_of_entry (hok : t.status = Status.ok.code) (hdata : t.res.data.length ≤ t.params.dataCap) {i : Nat}
    {e : Entry} (hi : t.params.catalog[i]? = some e) (hidx : t.res.idx = indexByte i) (hcmd : t.res.cmd = e.code)
    (hkind : t.res.kind = schemaKind e.kind) (hdiv : t.res.div = schemaDivisor e.kind) : Inv t where
  params_wf := hw
  status_assigned := hok ▸ status_code_le .ok
  kind_assigned := by
    rw [hkind]
    cases e.kind <;> simp [schemaKind, kindString, kindScaled]
  data_fits := hdata
  error_shows_nothing h := absurd hok h
  kind_has_entry _ := ⟨e, by rwa [hidx, indexByte_toNat hw hi], hcmd.symm, hkind.symm⟩
  divisor_iff_scaled := by
    rw [hkind, hdiv]
    exact schemaDivisor_ne_zero_iff hw hi

end

theorem applyReset_inv {s : State} (hw : s.params.wf = true) : Inv (applyReset s) :=
  inv_of_showsNothing hw .ok rfl ⟨rfl, rfl, rfl, rfl⟩

theorem resetWith_inv {p : Params} (hw : p.wf = true) : Inv (State.resetWith p) :=
  inv_of_showsNothing hw .ok rfl ⟨rfl, rfl, rfl, rfl⟩

/-- The command completes in a state that meets the invariant. -/
def EndsInInv (o : Outcome) : Prop := ∃ t, o = .next t ∧ Inv t

theorem receivedFrame_payload_length_le (d : List Byte) : (receivedFrame d).payload.length ≤ d.length := by
  simp [receivedFrame, slice]

section
variable {s : State} (hw : s.params.wf = true)
include hw

/-- A frame fits the buffer (R9, R175): 261 bytes are the longest. -/
theorem buildFrame_fits (a : Byte) (c : Half) {d : List Byte} (hd : d.length ≤ 255) :
    (buildFrame a c d).length ≤ s.params.dataCap := by
  obtain ⟨-, -, hcap⟩ := (params_wf_iff s.params).mp hw
  rw [buildFrame_length]
  omega

/-- The shared shape of the ends that show nothing. -/
theorem endsInInv_of_showsNothing {o : Outcome} {c : Half} (e : Status) {r : Results}
    (h : o = .next { s with crc := c, status := e.code, res := r }) (hr : ShowsNothing r) : EndsInInv o :=
  ⟨_, h, inv_of_showsNothing hw e rfl hr⟩

theorem execChecksum_endsInInv (d : List Byte) : EndsInInv (execChecksum d s) := by
  rcases Nat.lt_or_ge s.params.dataCap d.length with h | h
  · exact endsInInv_of_showsNothing hw .oversize (execChecksum_of_over h) ⟨rfl, rfl, rfl, rfl⟩
  · exact endsInInv_of_showsNothing hw .ok (execChecksum_of_fits h) ⟨rfl, rfl, rfl, rfl⟩

theorem execEncode_endsInInv (a : Byte) (c : Half) (d : List Byte) : EndsInInv (execEncode a c d s) := by
  by_cases h : d.length ≤ s.params.dataCap ∧ d.length ≤ 255
  · obtain ⟨hcap, hlen⟩ := h
    exact ⟨_, execEncode_of_fits a c hcap hlen, inv_of_data hw rfl (buildFrame_fits hw a c hlen) rfl rfl⟩
  · exact endsInInv_of_showsNothing hw .oversize (execEncode_of_over a c (by omega)) ⟨rfl, rfl, rfl, rfl⟩

theorem execDecode_endsInInv (d : List Byte) : EndsInInv (execDecode d s) := by
  rcases Nat.lt_or_ge s.params.dataCap d.length with hover | hcap
  · exact endsInInv_of_showsNothing hw .oversize (execDecode_of_over hover) ⟨rfl, rfl, rfl, rfl⟩
  rcases readFrame_cases d with ⟨hr, -⟩ | ⟨hr, -⟩ | ⟨hr, -⟩
  · exact endsInInv_of_showsNothing hw .truncated (execDecode_of_truncated hcap hr) ⟨rfl, rfl, rfl, rfl⟩
  · exact endsInInv_of_showsNothing hw .checksumMismatch (execDecode_of_mismatch hcap hr) ⟨rfl, rfl, rfl, rfl⟩
  cases hl : lookupIndex s.params.catalog (receivedFrame d).code with
  | none =>
    exact endsInInv_of_showsNothing hw .unknownCommand (execDecode_of_unknown hcap hr hl) ⟨rfl, rfl, rfl, rfl⟩
  | some i =>
    exact ⟨_, execDecode_of_known hcap hr hl,
      inv_of_data hw rfl ((receivedFrame_payload_length_le d).trans hcap) rfl rfl⟩

theorem execLookup_endsInInv (c : Half) : EndsInInv (execLookup c s) := by
  cases hl : lookupEntry s.params.catalog c with
  | none => exact endsInInv_of_showsNothing hw .unknownCommand (execLookup_of_none hl) ⟨rfl, rfl, rfl, rfl⟩
  | some ie =>
    obtain ⟨i, e⟩ := ie
    obtain ⟨-, hi, rfl⟩ := lookupEntry_some hl
    exact ⟨_, execLookup_of_some hl, inv_of_entry hw rfl (by simp) hi (by simp) (by simp) (by simp) (by simp)⟩

theorem execDispatch_endsInInv (c : Half) (d : List Byte) : EndsInInv (execDispatch c d s) := by
  rcases Nat.lt_or_ge s.params.dataCap d.length with hover | hcap
  · exact endsInInv_of_showsNothing hw .oversize (execDispatch_of_over hover) ⟨rfl, rfl, rfl, rfl⟩
  cases hl : lookupEntry s.params.catalog c with
  | none =>
    exact endsInInv_of_showsNothing hw .unknownCommand (execDispatch_of_none hcap hl) ⟨rfl, rfl, rfl, rfl⟩
  | some ie =>
    obtain ⟨i, e⟩ := ie
    obtain ⟨-, hi, rfl⟩ := lookupEntry_some hl
    by_cases hk : d.length = schemaLength e.kind
    · have hdata := (payloadResults_data_length_le s.params.padBytes e.code i e.kind d).trans hcap
      exact ⟨_, execDispatch_of_some hcap hl hk,
        inv_of_entry hw rfl hdata hi (by simp) (by simp) (by simp) (by simp)⟩
    · exact endsInInv_of_showsNothing hw .lengthMismatch (execDispatch_of_length hcap hl hk) ⟨rfl, rfl, rfl, rfl⟩

end

/-- Every command, in whatever state with legal parameters, ends in a state that meets the invariant. -/
theorem exec_endsInInv {s : State} (hw : s.params.wf = true) (i : Instr) : EndsInInv (exec i s) := by
  cases i with
  | crcClear => exact endsInInv_of_showsNothing hw .ok rfl ⟨rfl, rfl, rfl, rfl⟩
  | crcByte b => exact endsInInv_of_showsNothing hw .ok rfl ⟨rfl, rfl, rfl, rfl⟩
  | crcRead => exact endsInInv_of_showsNothing hw .ok rfl ⟨rfl, rfl, rfl, rfl⟩
  | checksum d => exact execChecksum_endsInInv hw d
  | encode a c d => exact execEncode_endsInInv hw a c d
  | decode d => exact execDecode_endsInInv hw d
  | lookup c => exact execLookup_endsInInv hw c
  | dispatch c d => exact execDispatch_endsInInv hw c d

theorem issue_endsInInv {s : State} (hw : s.params.wf = true) (w : CommandWord) (d : List Byte) :
    EndsInInv (issue w d s) := by
  cases hd : decode w d with
  | ok i =>
    rw [issue_of_decode hd]
    exact exec_endsInInv hw i
  | error e =>
    rw [issue_of_reject hd]
    exact endsInInv_of_showsNothing hw .illegalCommand (execIllegal_eq s) ⟨rfl, rfl, rfl, rfl⟩

theorem perform_endsInInv {s : State} (hw : s.params.wf = true) (a : HostAction) : EndsInInv (perform a s) := by
  cases a with
  | command w d => exact issue_endsInInv hw w d
  | reset => exact ⟨_, rfl, applyReset_inv hw⟩

/-! ### The obligations -/

/-- Settles O3: the reset registers show nothing, and the parameters of `State.reset` are legal. -/
theorem invAtConstruction : Obligations.InvAtConstruction :=
  ⟨fun _ => resetWith_inv, resetWith_inv (by decide)⟩

/-- Settles O4: a step takes no action, or one, and every action ends in a state with the invariant. -/
theorem everyStepKeepsInv : Obligations.EveryStepKeepsInv := by
  intro s t hinv h
  obtain ⟨hw, ⟨-, rfl⟩ | ⟨a, rest, -, ht⟩⟩ := step_next_cases h
  · exact hinv
  · obtain ⟨u, hu, hinv'⟩ := perform_endsInInv (s := { s with script := rest }) hw a
    exact Host.Outcome.next.inj (hu.symm.trans ht) ▸ hinv'

/-- Settles O6: a step with legal parameters completes and keeps them. -/
theorem everyRunIsSafe : Obligations.EveryRunIsSafe := fun _ k hw => safeRun_of_wf k hw

/-- Settles O7: a step that answers has legal parameters, and keeps them. -/
theorem stepsKeepTheConstants : Obligations.StepsKeepTheConstants := by
  intro s t h
  obtain ⟨hw, -⟩ := step_next_cases h
  obtain ⟨u, hu, hparams, -⟩ := step_completes hw
  exact Host.Outcome.next.inj (hu.symm.trans h) ▸ hparams

/-- Settles O8: the step is `issue` of the word, and `issue` runs the decoded command. -/
theorem stepRunsTheDecodedCommand : Obligations.StepRunsTheDecodedCommand :=
  fun _ _ _ _ _ => step_of_decode

/-- Settles O9: the model's choice for a host with nothing left to do. -/
theorem stepWithoutAnActionKeepsEverything : Obligations.StepWithoutAnActionKeepsEverything :=
  fun _ hw hs => step_nil hs hw

/-- Settles O50: by induction on the actions; that they do not read the script lets the two runs differ in it. -/
theorem runsTakeTheActionsInOrder : Obligations.RunsTakeTheActionsInOrder :=
  fun s hw => runActions_eq_core_run s.script (s := { s with script := [] }) hw rfl

/-- Settles O51: each action sets its own place of the bank, and reads no other. -/
theorem actionsOnDifferentInstancesCommute : Obligations.ActionsOnDifferentInstancesCommute := by
  intro bank j k a b hne hw hj hk
  obtain ⟨s, s', hs, ha⟩ := act_completes hw hj a
  obtain ⟨t, t', ht, hb⟩ := act_completes hw hk b
  have ht' : (bank.set j s')[k]? = some t := by rwa [List.getElem?_set_ne hne]
  have hs' : (bank.set k t')[j]? = some s := by rwa [List.getElem?_set_ne hne.symm]
  refine ⟨(bank.set j s').set k t', ?_, ?_, fun m hmj hmk => ?_⟩
  · rw [actAt_of_getElem? hs ha]
    exact actAt_of_getElem? ht' hb
  · rw [actAt_of_getElem? ht hb, List.set_comm _ _ hne]
    exact actAt_of_getElem? hs' ha
  · rw [List.getElem?_set_ne hmk.symm, List.getElem?_set_ne hmj.symm]

/-- Settles O52: parameters that fail a check are not `Params.wf`, and `step` asks for that first. -/
theorem everyStepWithoutAnInstanceIsRefused : Obligations.EveryStepWithoutAnInstanceIsRefused := by
  intro s h
  rw [legalParams_iff_wf, Bool.not_eq_true] at h
  exact step_refused h

end Sys2Proof.Machine
end

section
/-!
PROOFS. The checksum (spec/40_checksum.md): the shift step is linear over XOR and loses nothing, so the table step is the
bit-serial form (R83) and is one-to-one in the value and in the byte; from that follow what leading zeros, an appended
checksum and a changed byte do (R89 to R91), and what a stream of CRC_BYTE leaves (R88, R74).
-/

namespace Sys2Proof.Machine

/-! ### The shift step -/

/-- A mask on both sides of an XOR cancels. -/
theorem xor_eq_xor_masked (a b mask : Half) : a ^^^ b = (a ^^^ mask) ^^^ (b ^^^ mask) := by
  rw [BitVec.xor_comm b mask, BitVec.xor_assoc, ← BitVec.xor_assoc mask, BitVec.xor_self, BitVec.zero_xor]

theorem shiftStep_xor (a b : Half) : shiftStep (a ^^^ b) = shiftStep a ^^^ shiftStep b := by
  unfold shiftStep
  rw [BitVec.getLsbD_xor, BitVec.ushiftRight_xor_distrib]
  cases a.getLsbD 0 <;> cases b.getLsbD 0
  · rfl
  · exact BitVec.xor_assoc ..
  · simp only [Bool.xor_false, if_true, Bool.false_eq_true, if_false]
    ac_rfl
  · exact xor_eq_xor_masked _ _ _

theorem shiftSteps8_xor (a b : Half) : shiftSteps8 (a ^^^ b) = shiftSteps8 a ^^^ shiftSteps8 b := by
  simp only [shiftSteps8, shiftStep_xor]

/-- The bit that is shifted out is kept as the top bit, which 0xA001 sets and the shift clears. -/
theorem shiftStep_top (c : Half) : (shiftStep c).getLsbD 15 = c.getLsbD 0 := by
  unfold shiftStep
  cases h : c.getLsbD 0 <;> simp

theorem shiftStep_injective : Function.Injective shiftStep := by
  intro a b h
  have hlow : a.getLsbD 0 = b.getLsbD 0 := by rw [← shiftStep_top a, h, shiftStep_top b]
  have hrest : a >>> 1 = b >>> 1 := by
    unfold shiftStep at h
    rw [hlow] at h
    split at h
    · exact (BitVec.xor_left_inj _).mp h
    · exact h
  apply BitVec.eq_of_getLsbD_eq
  intro i hi
  cases i with
  | zero => exact hlow
  | succ i =>
    have := congrArg (·.getLsbD i) hrest
    simpa [BitVec.getLsbD_ushiftRight, Nat.add_comm 1] using this

theorem shiftSteps8_injective : Function.Injective shiftSteps8 :=
  shiftStep_injective.iterate 8

/-- Eight steps bring the high byte down: no bit they shift out is set. -/
theorem shiftSteps8_high_byte : ∀ h : Byte, shiftSteps8 (h.setWidth 16 <<< 8) = h.setWidth 16 := by decide

/-! ### The table step -/

/-- A 16-bit value is its high byte over its low one. -/
theorem high_xor_low (c : Half) : ((c >>> 8).setWidth 8).setWidth 16 <<< 8 ^^^ (c.setWidth 8).setWidth 16 = c := by
  ext i hi
  simp
  grind

/-- What a value leaves in its high byte is not reached by the byte of a step (R81). -/
theorem high_byte_xor_byte (c : Half) (b : Byte) :
    (((c ^^^ b.setWidth 16) >>> 8).setWidth 8).setWidth 16 = c >>> 8 := by
  ext i hi
  simp
  grind

/-- The table step is the bit-serial step (R83): the eight steps of the low byte are the table's entry, and those of the
high byte a shift. -/
theorem crcStep_eq_serial (c : Half) (b : Byte) : crcStep c b = crcStepSerial c b :=
  calc
    crcStep c b = shiftSteps8 (((c ^^^ b.setWidth 16).setWidth 8).setWidth 16) ^^^ (c >>> 8) := by
      rw [crcStep, crcTable_eq_crcEntry, crcEntry]
    _ = shiftSteps8 ((((c ^^^ b.setWidth 16) >>> 8).setWidth 8).setWidth 16 <<< 8 ^^^
          ((c ^^^ b.setWidth 16).setWidth 8).setWidth 16) := by
      rw [shiftSteps8_xor, shiftSteps8_high_byte, high_byte_xor_byte, BitVec.xor_comm]
    _ = crcStepSerial c b := by rw [high_xor_low, crcStepSerial]

theorem crcStep_injective_crc (b : Byte) : Function.Injective fun c => crcStep c b := by
  intro c c' h
  simp only [crcStep_eq_serial, crcStepSerial] at h
  exact (BitVec.xor_left_inj _).mp (shiftSteps8_injective h)

theorem crcStep_injective_byte (c : Half) : Function.Injective (crcStep c) := by
  intro b b' h
  simp only [crcStep_eq_serial, crcStepSerial] at h
  have hwide := congrArg (BitVec.setWidth 8) ((BitVec.xor_right_inj _).mp (shiftSteps8_injective h))
  rwa [BitVec.setWidth_setWidth_of_le _ (by decide), BitVec.setWidth_setWidth_of_le _ (by decide), BitVec.setWidth_eq,
    BitVec.setWidth_eq] at hwide

/-- A step with a value's own low byte shifts its high byte down. -/
theorem crcStep_low_byte (c : Half) : crcStep c (c.setWidth 8) = ((c >>> 8).setWidth 8).setWidth 16 := by
  have hhigh : c ^^^ (c.setWidth 8).setWidth 16 = ((c >>> 8).setWidth 8).setWidth 16 <<< 8 := by
    conv_lhs => rw [← high_xor_low c]
    ext i hi
    simp
  rw [crcStep_eq_serial, crcStepSerial, hhigh, shiftSteps8_high_byte]

/-- A step with the byte that is the whole value leaves nothing. -/
theorem crcStep_same (b : Byte) : crcStep (b.setWidth 16) b = 0x0000#16 := by
  rw [crcStep_eq_serial, crcStepSerial, BitVec.xor_self]
  decide

/-! ### The fold -/

theorem crcFold_injective_crc (s : List Byte) : Function.Injective fun c => crcFold c s := by
  induction s with
  | nil => exact Function.injective_id
  | cons b s ih => exact ih.comp (crcStep_injective_crc b)

theorem crcFold_zeros (k : Nat) : crcFold 0x0000#16 (List.replicate k 0x00#8) = 0x0000#16 := by
  induction k with
  | zero => rfl
  | succ k ih => exact (congrArg (crcFold · _) (crcStep_same 0x00#8)).trans ih

/-- Continued with its own two bytes, low byte first, a value becomes 0x0000 (R90). -/
theorem crcFold_own_bytes (c : Half) : crcFold c [c.setWidth 8, (c >>> 8).setWidth 8] = 0x0000#16 := by
  rw [crcFold_cons, crcFold_cons, crcFold_nil, crcStep_low_byte, crcStep_same]

/-- And with the two bytes of no other value (R90, R91). -/
theorem crcFold_bytes_eq_zero_iff (c x : Half) :
    crcFold c [x.setWidth 8, (x >>> 8).setWidth 8] = 0x0000#16 ↔ x = c := by
  refine ⟨fun h => ?_, fun h => h ▸ crcFold_own_bytes x⟩
  exact crcFold_injective_crc _ ((crcFold_own_bytes x).trans h.symm)

/-- Two sequences that differ in one byte alone have different checksums (R91). -/
theorem checksum_replaced_byte_ne (l r : List Byte) {a b : Byte} (h : a ≠ b) :
    checksum (l ++ a :: r) ≠ checksum (l ++ b :: r) := by
  intro heq
  rw [checksum_append, checksum_append] at heq
  exact h (crcStep_injective_byte _ (crcFold_injective_crc r heq))

theorem checksum_set_ne {m : List Byte} {k : Nat} {b : Byte} (hk : k < m.length) (hb : m[k]? ≠ some b) :
    checksum (m.set k b) ≠ checksum m := by
  have hne : b ≠ m[k] := fun h => hb (by rw [h, List.getElem?_eq_getElem hk])
  have hm : m.take k ++ m[k] :: m.drop (k + 1) = m := by rw [List.getElem_cons_drop, List.take_append_drop]
  have h := checksum_replaced_byte_ne (m.take k) (m.drop (k + 1)) hne
  rwa [hm, ← List.set_eq_take_cons_drop b hk] at h

/-! ### A stream of CRC_BYTE -/

/-- A state is its constants, its registers and its host's script. -/
theorem state_eq_of_registers {s t : State} (hparams : s.params = t.params) (hcrc : s.crc = t.crc)
    (hstatus : s.status = t.status) (hres : s.res = t.res) (hscript : s.script = t.script) : s = t := by
  cases s
  cases t
  simp_all

/-- One CRC_BYTE of a run. -/
theorem step_crcByte {s : State} {b : Byte} {rest : List HostAction} (hw : s.params.wf = true)
    (hs : s.script = HostAction.ofInstr (.crcByte b) :: rest) :
    step s = .next { s with
      crc := crcStep s.crc b, status := 0x00#8, res := crcResults (crcStep s.crc b), script := rest } :=
  step_ofInstr hw hs

/-- One CRC_BYTE for each byte of `m` takes `CRC` to the fold over `m`, and leaves the host its remaining actions. Where
STATUS is OK and `RES_CRC` shows `CRC` before, as after CRC_CLEAR, so they do after (R74, R85). -/
theorem run_crcBytes (m : List Byte) {s : State} {rest : List HostAction} (hw : s.params.wf = true)
    (hs : s.script = scriptOf (m.map Instr.crcByte) ++ rest) :
    ∃ t, Sys2Proof.core.run m.length s = .next t ∧ t.params = s.params ∧ t.crc = crcFold s.crc m ∧ t.script = rest ∧
      (s.status = 0x00#8 → s.res = crcResults s.crc → t.status = 0x00#8 ∧ t.res = crcResults t.crc) := by
  induction m generalizing s with
  | nil => exact ⟨s, core_run_zero s, rfl, rfl, hs, fun hst hr => ⟨hst, hr⟩⟩
  | cons b m ih =>
    obtain ⟨t, hrun, hp, hc, hscript, hshow⟩ := ih (s := { s with
      crc := crcStep s.crc b, status := 0x00#8, res := crcResults (crcStep s.crc b)
      script := scriptOf (m.map Instr.crcByte) ++ rest }) hw rfl
    exact ⟨t, (core_run_succ _ (step_crcByte hw hs)).trans hrun, hp, hc, hscript, fun _ _ => hshow rfl rfl⟩

/-! ### The obligations -/

/-- Settles O16: the step is `crcStepSerial`, whose eight shift steps are the rule iterated. -/
theorem crcStepEqualsTheBitSerialForm : Obligations.CrcStepEqualsTheBitSerialForm := fun c b =>
  (crcStep_eq_serial c b).trans (shiftSteps8_eq_iterate _)

/-- Settles O21: CRC_CLEAR leaves a `CRC` of 0x0000 that `RES_CRC` shows, and the stream goes on from there. -/
theorem byteStreamEqualsChecksum : Obligations.ByteStreamEqualsChecksum := by
  intro s m rest hw hs
  have hclear : step s = .next { s with
      crc := 0x0000#16, status := 0x00#8, res := crcResults 0x0000#16
      script := scriptOf (m.map Instr.crcByte) ++ rest } := step_ofInstr hw hs
  obtain ⟨t, hrun, hparams, hcrc, hscript, hshow⟩ := run_crcBytes m (s := { s with
    crc := 0x0000#16, status := 0x00#8, res := crcResults 0x0000#16
    script := scriptOf (m.map Instr.crcByte) ++ rest }) hw rfl
  obtain ⟨hstatus, hres⟩ := hshow rfl rfl
  exact ⟨t, (core_run_succ _ hclear).trans hrun,
    state_eq_of_registers hparams hcrc hstatus (hres.trans (congrArg crcResults hcrc)) hscript⟩

/-- Settles O22: a fold from 0x0000 over zeros stays there. -/
theorem leadingZerosAreInvisible : Obligations.LeadingZerosAreInvisible := by
  intro k m
  rw [checksum_append, checksum, crcFold_zeros, ← checksum]

/-- Settles O23: the fold goes on from the checksum over its own two bytes. -/
theorem checksumResidueIsZero : Obligations.ChecksumResidueIsZero := by
  intro p
  rw [checksum_append, crcFold_own_bytes]

/-- Settles O24: a step is one-to-one in its byte, and every later step in the value. -/
theorem oneChangedByteChangesTheChecksum : Obligations.OneChangedByteChangesTheChecksum :=
  fun _ _ _ => checksum_set_ne

end Sys2Proof.Machine
end

section
/-!
PROOFS. Frames end to end (spec/41_frame_codec.md sections 2 and 3): a frame is valid when its length is the declared one
and its checksum, over all its bytes, is 0x0000 (R56, R90); DECODE reads a valid frame at the front of its operand and
nothing after it. From these follow what ENCODE outputs, the round trip and what a changed byte does (R102 to R108); and
DISPATCH after an accepted frame finds its code (R136).
-/

namespace Sys2Proof.Machine

/-! ### Valid frames -/

theorem checksumBytes_eq_setWidth (c : Half) : checksumBytes c = [c.setWidth 8, (c >>> 8).setWidth 8] := by
  rw [checksumBytes, loByte_eq_setWidth, hiByte_eq_setWidth]

/-- The last two bytes of a sequence. -/
theorem drop_eq_pair {d : List Byte} {n : Nat} (h : d.length = n + 2) : d.drop n = [byteAt d n, byteAt d (n + 1)] := by
  rw [List.drop_eq_getElem_cons (by omega), List.drop_eq_getElem_cons (by omega), List.drop_of_length_le (by omega),
    byteAt, byteAt, List.getD_eq_getElem _ _ (by omega), List.getD_eq_getElem _ _ (by omega)]

/-- Received bytes of the declared length are those before the checksum, and its two (R55). -/
theorem receivedPrefix_append_checksumBytes {f : List Byte} (h : f.length = declaredLength f + 6) :
    receivedPrefix f ++ checksumBytes (receivedChecksum f) = f := by
  have hpair : f.drop (4 + declaredLength f) = checksumBytes (receivedChecksum f) := by
    rw [drop_eq_pair (by omega), checksumBytes, receivedChecksum, loByte_ofBytes, hiByte_ofBytes,
      Nat.add_right_comm 4]
  rw [receivedPrefix_eq_take, ← hpair, List.take_append_drop]

/-- A valid frame, in the terms of the frame layer. -/
theorem validFrame_iff (f : List Byte) :
    ValidFrame f ↔ f.length = declaredLength f + 6 ∧ receivedChecksum f = checksum (receivedPrefix f) := by
  have hL : (f.getD 3 0).toNat = declaredLength f := rfl
  rw [ValidFrame, hL, Nat.add_comm 6]
  refine and_congr_right fun h => ?_
  have h2 : f.length - 2 = 4 + declaredLength f := by omega
  have h1 : f.length - 1 = 5 + declaredLength f := by omega
  rw [receivedChecksum_eq_append, receivedPrefix_eq_take, h2, h1]
  exact eq_comm

/-- The checksum over a whole frame tells whether it is valid (R90). -/
theorem validFrame_iff_checksum (f : List Byte) :
    ValidFrame f ↔ f.length = declaredLength f + 6 ∧ checksum f = 0x0000#16 := by
  rw [validFrame_iff]
  refine and_congr_right fun h => ?_
  conv_rhs => rw [← receivedPrefix_append_checksumBytes h, checksum_append, checksumBytes_eq_setWidth]
  exact (crcFold_bytes_eq_zero_iff _ _).symm

/-- A valid frame fits the buffer (R9, R175). -/
theorem validFrame_fits {p : Params} (hw : p.wf = true) {f : List Byte} (hv : ValidFrame f) :
    f.length ≤ p.dataCap := by
  obtain ⟨hlen, -⟩ := (validFrame_iff f).mp hv
  obtain ⟨-, -, hcap⟩ := (params_wf_iff p).mp hw
  have : declaredLength f < 256 := (byteAt f 3).isLt
  omega

/-- The fields of a valid frame. -/
theorem receivedFrame_of_validFrame {f : List Byte} (hv : ValidFrame f) :
    receivedFrame f = {
      addr := f.getD 0 0, code := f.getD 1 0 ++ f.getD 2 0, len := f.getD 3 0
      payload := (f.take (f.length - 2)).drop 4, crc := checksum (f.take (f.length - 2)) } := by
  obtain ⟨hlen, hsum⟩ := (validFrame_iff f).mp hv
  have h2 : f.length - 2 = 4 + declaredLength f := by omega
  rw [h2, List.drop_take, ← receivedPrefix_eq_take, ← hsum, Nat.add_sub_cancel_left,
    ← receivedFrame_payload_eq_take_drop, ← receivedFrame_code_eq_append]
  rfl

/-! ### Frames with bytes after them -/

theorem byteAt_append {f : List Byte} {i : Nat} (h : i < f.length) (g : List Byte) : byteAt (f ++ g) i = byteAt f i :=
  List.getD_append _ _ _ _ h

section
variable {f : List Byte} (h : f.length = declaredLength f + 6) (g : List Byte)
include h

theorem declaredLength_append : declaredLength (f ++ g) = declaredLength f := by
  rw [declaredLength, byteAt_append (by omega), declaredLength]

theorem receivedChecksum_append : receivedChecksum (f ++ g) = receivedChecksum f := by
  rw [receivedChecksum, declaredLength_append h, byteAt_append (by omega), byteAt_append (by omega), receivedChecksum]

theorem receivedPrefix_append : receivedPrefix (f ++ g) = receivedPrefix f := by
  rw [receivedPrefix_eq_take, declaredLength_append h, List.take_append_of_le_length (by omega), receivedPrefix_eq_take]

/-- Bytes after the declared length are read by nothing (R103). -/
theorem receivedFrame_append : receivedFrame (f ++ g) = receivedFrame f := by
  have hpayload : (receivedFrame (f ++ g)).payload = (receivedFrame f).payload := by
    rw [receivedFrame_payload_eq_take_drop, receivedFrame_payload_eq_take_drop, declaredLength_append h,
      List.drop_append_of_le_length (by omega), List.take_append_of_le_length (by simp; omega)]
  simp only [receivedFrame, byteAt_append (show 0 < f.length by omega), byteAt_append (show 1 < f.length by omega),
    byteAt_append (show 2 < f.length by omega), byteAt_append (show 3 < f.length by omega),
    receivedChecksum_append h, Frame.mk.injEq, true_and, and_true]
  exact hpayload

end

theorem readFrame_of_validFrame_append {f : List Byte} (hv : ValidFrame f) (g : List Byte) :
    readFrame (f ++ g) = .valid (receivedFrame f) := by
  obtain ⟨hlen, hsum⟩ := (validFrame_iff f).mp hv
  have hlen' : (f ++ g).length = f.length + g.length := List.length_append
  have hdecl := declaredLength_append hlen g
  rcases readFrame_cases (f ++ g) with ⟨-, hshort⟩ | ⟨-, -, -, hne⟩ | ⟨hr, -⟩
  · omega
  · exact absurd hsum (receivedChecksum_append hlen g ▸ receivedPrefix_append hlen g ▸ hne)
  · rw [hr, receivedFrame_append hlen]

/-- Bytes the frame layer accepts begin with a valid frame. -/
theorem validFrame_of_readFrame {d : List Byte} {fr : Frame} (h : readFrame d = .valid fr) :
    ∃ f g, d = f ++ g ∧ ValidFrame f ∧ fr = receivedFrame f := by
  rcases readFrame_cases d with ⟨hr, -⟩ | ⟨hr, -⟩ | ⟨hr, h4, hlen, hsum⟩
  · simp [hr] at h
  · simp [hr] at h
  obtain rfl : receivedFrame d = fr := FrameResult.valid.inj (hr.symm.trans h)
  obtain ⟨f, g, rfl, hf⟩ : ∃ f g, d = f ++ g ∧ f.length = declaredLength d + 6 :=
    ⟨_, _, (List.take_append_drop (declaredLength d + 6) d).symm, by simpa using hlen⟩
  have hdecl : declaredLength (f ++ g) = declaredLength f := by
    rw [declaredLength, byteAt_append (by omega), declaredLength]
  rw [hdecl] at hf
  rw [receivedChecksum_append hf, receivedPrefix_append hf] at hsum
  exact ⟨f, g, rfl, (validFrame_iff f).mpr ⟨hf, hsum⟩, receivedFrame_append hf g⟩

/-! ### The frames ENCODE outputs -/

/-- The byte at offset 3 of ENCODE's frame is the payload's length (R101). -/
theorem declaredLength_buildFrame (a : Byte) (c : Half) {p : List Byte} (hp : p.length ≤ 255) :
    declaredLength (buildFrame a c p) = p.length :=
  lengthByte_toNat hp

theorem checksum_buildFrame (a : Byte) (c : Half) (p : List Byte) : checksum (buildFrame a c p) = 0x0000#16 := by
  rw [buildFrame_eq_append, checksum_append, crcFold_own_bytes]

theorem validFrame_buildFrame (a : Byte) (c : Half) {p : List Byte} (hp : p.length ≤ 255) :
    ValidFrame (buildFrame a c p) := by
  refine (validFrame_iff_checksum _).mpr ⟨?_, checksum_buildFrame a c p⟩
  rw [buildFrame_length, declaredLength_buildFrame a c hp, Nat.add_comm]

/-- The fields of ENCODE's frame are what it was given (R101, R105). -/
theorem receivedFrame_buildFrame (a : Byte) (c : Half) {p : List Byte} (hp : p.length ≤ 255) :
    receivedFrame (buildFrame a c p) = {
      addr := a, code := c, len := lengthByte p, payload := p, crc := checksum (framePrefix a c p) } := by
  have hpre : (buildFrame a c p).take ((buildFrame a c p).length - 2) = framePrefix a c p := by
    rw [buildFrame_length, buildFrame, List.take_left' (by rw [framePrefix_length]; omega)]
  rw [receivedFrame_of_validFrame (validFrame_buildFrame a c hp), hpre, ← ofBytes_eq_append]
  have hcode : ofBytes ((buildFrame a c p).getD 1 0) ((buildFrame a c p).getD 2 0) = c := ofBytes_hi_lo c
  rw [hcode]
  rfl

/-- An ENCODE that ends with OK could frame its payload. -/
theorem execEncode_ok {a : Byte} {c : Half} {d : List Byte} {s t : State} (h : execEncode a c d s = .next t)
    (hok : t.status = 0x00#8) :
    d.length ≤ 255 ∧ t = { s with status := 0x00#8, res := encodeResults a c d } := by
  by_cases hfits : d.length ≤ s.params.dataCap ∧ d.length ≤ 255
  · obtain ⟨hcap, hlen⟩ := hfits
    exact ⟨hlen, Host.Outcome.next.inj (h.symm.trans (execEncode_of_fits a c hcap hlen))⟩
  · obtain rfl := Host.Outcome.next.inj ((execEncode_of_over (s := s) a c (by omega)).symm.trans h)
    exact absurd hok (by simp)

/-! ### DECODE -/

/-- The ways DECODE answers: with nothing but an error status, with the header of an unknown code, or with the fields of a
valid frame of a known one. -/
theorem execDecode_next_cases {d : List Byte} {s t : State} (h : execDecode d s = .next t) :
    (t.status ≠ 0x00#8 ∧ t.res = Results.reset) ∨ t.status = 0x03#8 ∨
    ∃ f g i, d = f ++ g ∧ ValidFrame f ∧ d.length ≤ s.params.dataCap ∧
      lookupIndex s.params.catalog (receivedFrame f).code = some i ∧
      t = { s with status := 0x00#8, res := frameResults (receivedFrame f) i } := by
  rcases Nat.lt_or_ge s.params.dataCap d.length with hover | hcap
  · obtain rfl := Host.Outcome.next.inj ((execDecode_of_over hover).symm.trans h)
    exact .inl ⟨by simp, rfl⟩
  cases hr : readFrame d with
  | truncated =>
    obtain rfl := Host.Outcome.next.inj ((execDecode_of_truncated hcap hr).symm.trans h)
    exact .inl ⟨by simp, rfl⟩
  | checksumMismatch =>
    obtain rfl := Host.Outcome.next.inj ((execDecode_of_mismatch hcap hr).symm.trans h)
    exact .inl ⟨by simp, rfl⟩
  | valid fr =>
    cases hl : lookupIndex s.params.catalog fr.code with
    | none =>
      obtain rfl := Host.Outcome.next.inj ((execDecode_of_unknown hcap hr hl).symm.trans h)
      exact .inr (.inl rfl)
    | some i =>
      obtain ⟨f, g, hd, hv, rfl⟩ := validFrame_of_readFrame hr
      exact .inr (.inr ⟨f, g, i, hd, hv, hcap, hl,
        Host.Outcome.next.inj (h.symm.trans (execDecode_of_known hcap hr hl))⟩)

/-- A DECODE that ends with OK has read a valid frame of a known code (R104). -/
theorem execDecode_ok {d : List Byte} {s t : State} (h : execDecode d s = .next t) (hok : t.status = 0x00#8) :
    ∃ f g i, d = f ++ g ∧ ValidFrame f ∧ d.length ≤ s.params.dataCap ∧
      lookupIndex s.params.catalog (receivedFrame f).code = some i ∧
      t = { s with status := 0x00#8, res := frameResults (receivedFrame f) i } := by
  rcases execDecode_next_cases h with ⟨hne, -⟩ | hunknown | hknown
  · exact absurd hok hne
  · simp [hok] at hunknown
  · exact hknown

/-- A valid frame alone ends with OK and its payload, or with UNKNOWN_COMMAND and no payload, as the catalog has its code
or not; both show the header (R103). -/
theorem execDecode_of_validFrame {f : List Byte} {s : State} (hv : ValidFrame f) (hw : s.params.wf = true) :
    ∃ t, execDecode f s = .next t ∧ t.res.addr = (receivedFrame f).addr ∧ t.res.cmd = (receivedFrame f).code ∧
      t.res.len = (receivedFrame f).len ∧
      ((∃ e ∈ s.params.catalog, e.code = (receivedFrame f).code) →
        t.status = 0x00#8 ∧ t.res.data = (receivedFrame f).payload) ∧
      ((∀ e ∈ s.params.catalog, e.code ≠ (receivedFrame f).code) → t.status = 0x03#8 ∧ t.res.data = []) := by
  have hcap := validFrame_fits hw hv
  have hr : readFrame f = .valid (receivedFrame f) := by simpa using readFrame_of_validFrame_append hv []
  cases hl : lookupIndex s.params.catalog (receivedFrame f).code with
  | none =>
    refine ⟨_, execDecode_of_unknown hcap hr hl, rfl, rfl, rfl, fun ⟨e, he, hc⟩ => ?_, fun _ => ⟨rfl, rfl⟩⟩
    exact absurd hc (lookupIndex_none hl e he)
  | some i =>
    refine ⟨_, execDecode_of_known hcap hr hl, rfl, rfl, rfl, fun _ => ⟨rfl, rfl⟩, fun h => ?_⟩
    obtain ⟨e, he, hc⟩ := lookupIndex_some hl
    exact absurd hc (h e (List.mem_of_getElem? he))

/-- The status of a DECODE whose operand fits, by the frame layer's checks (R103). -/
theorem execDecode_status {d : List Byte} {s : State} (hcap : d.length ≤ s.params.dataCap) (h4 : 4 ≤ d.length) :
    ∃ t, execDecode d s = .next t ∧
      (d.length < declaredLength d + 6 → t.status = 0x01#8) ∧
      (declaredLength d + 6 ≤ d.length → receivedChecksum d ≠ checksum (receivedPrefix d) → t.status = 0x02#8) ∧
      (declaredLength d + 6 ≤ d.length → receivedChecksum d = checksum (receivedPrefix d) →
        t.status = 0x00#8 ∨ t.status = 0x03#8) := by
  obtain ⟨t, ht, -, hcause⟩ := execDecode_endsWith_firstCause hcap
  refine ⟨t, ht, fun hshort => ?_, fun hlen hne => ?_, fun hlen heq => ?_⟩
  · rw [if_pos (.inr hshort)] at hcause
    exact hcause.1
  · rw [if_neg (by omega), if_pos hne] at hcause
    exact hcause.1
  · rw [if_neg (by omega), if_neg (not_not.mpr heq)] at hcause
    split at hcause
    · exact .inr hcause.1
    · exact .inl hcause

/-! ### One changed byte -/

theorem byteAt_set_ne {d : List Byte} {i k : Nat} (h : k ≠ i) (b : Byte) : byteAt (d.set k b) i = byteAt d i := by
  simp [byteAt, List.getElem?_set_ne h]

theorem declaredLength_set_len {d : List Byte} (h : 3 < d.length) (b : Byte) :
    declaredLength (d.set 3 b) = b.toNat := by
  simp [declaredLength, byteAt, h]

theorem declaredLength_set_ne {d : List Byte} {k : Nat} (h : k ≠ 3) (b : Byte) :
    declaredLength (d.set k b) = declaredLength d := by
  rw [declaredLength, byteAt_set_ne h, declaredLength]

/-- A valid frame with a byte other than LEN changed keeps its length and not its checksum (R91, R106). -/
theorem checksum_mismatch_of_set {f : List Byte} {k : Nat} {b : Byte} (hv : ValidFrame f) (hk : k < f.length)
    (hb : f[k]? ≠ some b) (h3 : k ≠ 3) :
    declaredLength (f.set k b) + 6 ≤ (f.set k b).length ∧
      receivedChecksum (f.set k b) ≠ checksum (receivedPrefix (f.set k b)) := by
  obtain ⟨hlen, hzero⟩ := (validFrame_iff_checksum f).mp hv
  have hlen' : (f.set k b).length = declaredLength (f.set k b) + 6 := by
    rw [List.length_set, declaredLength_set_ne h3, hlen]
  refine ⟨hlen'.ge, fun heq => ?_⟩
  obtain ⟨-, hzero'⟩ := (validFrame_iff_checksum _).mp ((validFrame_iff _).mpr ⟨hlen', heq⟩)
  exact checksum_set_ne hk hb (hzero'.trans hzero.symm)

/-- With LEN changed, the bytes read as the checksum stand where the new LEN says. -/
theorem receivedChecksum_set_len {f : List Byte} (h : 3 < f.length) (b : Byte) :
    receivedChecksum (f.set 3 b) = f.getD (5 + b.toNat) 0 ++ f.getD (4 + b.toNat) 0 := by
  rw [receivedChecksum, declaredLength_set_len h, byteAt_set_ne (by omega), byteAt_set_ne (by omega), ofBytes_eq_append]
  rfl

theorem receivedPrefix_set_len {f : List Byte} (h : 3 < f.length) (b : Byte) :
    receivedPrefix (f.set 3 b) = (f.set 3 b).take (4 + b.toNat) := by
  rw [receivedPrefix_eq_take, declaredLength_set_len h]

/-! ### DISPATCH after DECODE -/

theorem lookupEntry_of_lookupIndex {cat : List Entry} {code : Half} {i : Nat} (h : lookupIndex cat code = some i) :
    ∃ e, lookupEntry cat code = some (i, e) := by
  cases hl : lookupEntry cat code with
  | none => simp [lookupEntry_none_iff.mp hl] at h
  | some je =>
    obtain ⟨hj, -⟩ := lookupEntry_some hl
    obtain rfl : je.1 = i := Option.some.inj (hj.symm.trans h)
    exact ⟨je.2, rfl⟩

/-- DISPATCH of a code the catalog has, with an operand that fits, ends with OK or LENGTH_MISMATCH and shows the code and
its index (R129, R161). -/
theorem execDispatch_of_known {code : Half} {d : List Byte} {s : State} {i : Nat} (hcap : d.length ≤ s.params.dataCap)
    (hl : lookupIndex s.params.catalog code = some i) :
    ∃ u, execDispatch code d s = .next u ∧ (u.status = 0x00#8 ∨ u.status = 0x04#8) ∧ u.res.cmd = code ∧
      u.res.idx = indexByte i := by
  obtain ⟨e, he⟩ := lookupEntry_of_lookupIndex hl
  by_cases hk : d.length = schemaLength e.kind
  · exact ⟨_, execDispatch_of_some hcap he hk, .inl rfl, payloadResults_cmd .., payloadResults_idx ..⟩
  · exact ⟨_, execDispatch_of_length hcap he hk, .inr rfl, rfl, rfl⟩

/-! ### The obligations -/

/-- Settles O27: an ENCODE that ends with OK shows `buildFrame`, of a payload that LEN can hold. -/
theorem encodeOutputsValidFrames : Obligations.EncodeOutputsValidFrames := by
  intro s t a c d h hok
  obtain ⟨hlen, rfl⟩ := execEncode_ok h hok
  exact ⟨validFrame_buildFrame a c hlen, buildFrame_length a c d, checksum_buildFrame a c d⟩

/-- Settles O29: the frame layer reads the valid frame at the front, and a legal catalog has its code at `i`. -/
theorem decodeAcceptsValidFramesOfKnownCodes : Obligations.DecodeAcceptsValidFramesOfKnownCodes := by
  intro s f surplus i e hw hv hcap hi hcode
  have hframe := receivedFrame_of_validFrame hv
  have hl : lookupIndex s.params.catalog (receivedFrame f).code = some i := by
    rw [hframe, ← hcode]
    exact (lookupEntry_some (lookupEntry_of_getElem? hw hi)).1
  refine (execDecode_of_known hcap (readFrame_of_validFrame_append hv surplus) hl).trans ?_
  rw [hframe, ← hcode]
  rfl

/-- Settles O30: an accepted operand begins with a valid frame whose fields are shown, and a failed checksum is one of the
errors that show nothing. -/
theorem acceptedFramesAreGenuine : Obligations.AcceptedFramesAreGenuine := by
  refine fun s t d h => ⟨fun hok => ?_, fun hmismatch => ?_⟩
  · obtain ⟨f, g, i, hd, hv, -, hl, rfl⟩ := execDecode_ok h hok
    obtain ⟨e, he, hc⟩ := lookupIndex_some hl
    have hframe := receivedFrame_of_validFrame hv
    exact ⟨f, g, hd, hv, congrArg Frame.crc hframe, congrArg Frame.payload hframe, e, List.mem_of_getElem? he, hc⟩
  · rcases execDecode_next_cases h with ⟨-, hres⟩ | hunknown | ⟨f, g, i, -, -, -, -, rfl⟩
    · exact hres
    · simp [hmismatch] at hunknown
    · simp at hmismatch

/-- Settles O31: ENCODE's frame is valid, and its fields are the address, code and payload it was built from. -/
theorem decodeOfEncodeRecoversTheFrame : Obligations.DecodeOfEncodeRecoversTheFrame := by
  intro s s' a c p hw hparams hp
  obtain ⟨-, -, hcap⟩ := (params_wf_iff s.params).mp hw
  have hframe := receivedFrame_buildFrame a c hp
  obtain ⟨t', ht', haddr, hcmd, hlen, hknown, hunknown⟩ :=
    execDecode_of_validFrame (s := s') (validFrame_buildFrame a c hp) (hparams ▸ hw)
  rw [hframe] at haddr hcmd hlen hknown hunknown
  rw [hparams] at hknown hunknown
  exact ⟨_, t', execEncode_of_fits a c (by omega) hp, ht', haddr, hcmd,
    (congrArg BitVec.toNat hlen).trans (lengthByte_toNat hp), hknown, hunknown⟩

/-- Settles O32: another byte than LEN keeps the length and spoils the checksum; LEN moves where the frame ends, and then
the checks of R103 decide. -/
theorem singleByteCorruptionIsDetected : Obligations.SingleByteCorruptionIsDetected := by
  intro s f k b hw hv hk hb
  obtain ⟨hlen, -⟩ := (validFrame_iff f).mp hv
  have hL : (f.getD 3 0).toNat = declaredLength f := rfl
  have h3 : 3 < f.length := by omega
  have hlength : (f.set k b).length = f.length := List.length_set
  obtain ⟨t, ht, htruncated, hmismatch, haccepted⟩ :=
    execDecode_status (d := f.set k b) (s := s) (hlength ▸ validFrame_fits hw hv) (by omega)
  refine ⟨t, ht, fun hne => ?_, ?_, ?_⟩
  · obtain ⟨hfits, hsum⟩ := checksum_mismatch_of_set hv hk hb hne
    exact hmismatch hfits hsum
  · rintro rfl hraised
    rw [declaredLength_set_len h3] at htruncated
    exact htruncated (by omega)
  · rintro rfl hlowered
    rw [declaredLength_set_len h3, receivedChecksum_set_len h3, receivedPrefix_set_len h3] at hmismatch haccepted
    exact ⟨hmismatch (by omega), haccepted (by omega)⟩

/-- Settles O33: zeros have checksum 0x0000, and the six declare a payload of 0 bytes and the code 0x0000. -/
theorem sixZeroBytesAreAFrame : Obligations.SixZeroBytesAreAFrame := by
  have hv : ValidFrame (List.replicate 6 0x00#8) := (validFrame_iff_checksum _).mpr ⟨rfl, crcFold_zeros 6⟩
  refine ⟨hv, fun s hw => ?_⟩
  obtain ⟨t, ht, -, -, -, hknown, hunknown⟩ := execDecode_of_validFrame (s := s) hv hw
  exact ⟨t, ht, fun h => (hknown h).1, fun h => (hunknown h).1⟩

/-- Settles O34: codes are distinct in a legal catalog, so the entry a lookup finds is the only one. -/
theorem lookupIsAFunction : Obligations.LookupIsAFunction := by
  refine fun p code hw => ⟨fun i => ⟨lookupIndex_some, ?_⟩, lookupIndex_none, fun h => ?_⟩
  · rintro ⟨e, hi, rfl⟩
    exact (lookupEntry_some (lookupEntry_of_getElem? hw hi)).1
  · exact lookupEntry_none_iff.mp (lookupEntry_of_absent h)

/-- Settles O43: DECODE has found the code in the same catalog, and its payload fits. -/
theorem dispatchAfterDecodeKnowsTheCode : Obligations.DispatchAfterDecodeKnowsTheCode := by
  intro s t d _ h hok
  obtain ⟨f, g, i, rfl, -, hcap, hl, rfl⟩ := execDecode_ok h hok
  refine execDispatch_of_known (le_trans ?_ hcap) hl
  exact (receivedFrame_payload_length_le f).trans (by simp)

end Sys2Proof.Machine
end

section
/-!
PROOFS. Repeating a command (spec/20_memory.md section 3, R50): the answer of a command that does not read `CRC` comes from
the constants, CRC_READ shows a `CRC` it does not change, and what any but CRC_BYTE writes to `CRC` it writes again.
-/

namespace Sys2Proof.Machine

theorem crcAfter_idempotent {i : Instr} (hb : ∀ b, i ≠ .crcByte b) (p : Params) (c : Half) :
    crcAfter i p (crcAfter i p c) = crcAfter i p c := by
  cases i with
  | crcByte b => exact absurd rfl (hb b)
  | checksum d =>
    simp only [crcAfter]
    split <;> rfl
  | _ => rfl

/-- Settles O47: the second answer is drawn from the same constants, and from a `CRC` the command leaves as it is. -/
theorem repeatedCommandsGiveTheSameResults : Obligations.RepeatedCommandsGiveTheSameResults := by
  intro i s t hb h
  by_cases hr : i = .crcRead
  · subst hr
    obtain rfl := Host.Outcome.next.inj h
    rfl
  · obtain ⟨e, r, -, hans⟩ := answersFromConstants_of_not_crcReader hb hr s.params
    obtain rfl := Host.Outcome.next.inj ((hans s rfl).symm.trans h)
    have hagain := hans { s with crc := crcAfter i s.params s.crc, status := Status.code e, res := r } rfl
    rwa [crcAfter_idempotent hb] at hagain

end Sys2Proof.Machine
end

section
/-!
PROOFS. The assembler (spec/30_encoding.md R72 to R74): the lines it accepts, one shape for each name, and what the shapes
bound; and what the two pseudo-commands expand to.
-/

namespace Sys2Proof.Machine

/-! ### Operands -/

theorem asmByte_eq_some {n : Nat} {b : Byte} (h : asmByte n = some b) : n ≤ 0xFF := by
  unfold asmByte at h
  split at h
  · assumption
  · cases h

theorem asmCode_eq_some {n : Nat} {c : Half} (h : asmCode n = some c) : n ≤ 0xFFFF := by
  unfold asmCode at h
  split at h
  · assumption
  · cases h

/-- A number that is a byte is accepted as that byte. -/
theorem asmByte_toNat (b : Byte) : asmByte b.toNat = some b := by
  rw [asmByte, if_pos (by omega), BitVec.ofNat_toNat, BitVec.setWidth_eq]

theorem asmCode_toNat (c : Half) : asmCode c.toNat = some c := by
  rw [asmCode, if_pos (by omega), BitVec.ofNat_toNat, BitVec.setWidth_eq]

theorem asmBytes_eq_some {ns : List Nat} {d : List Byte} (h : asmBytes ns = some d) :
    d.length = ns.length ∧ ∀ n ∈ ns, n ≤ 0xFF := by
  induction ns generalizing d with
  | nil =>
    obtain rfl := Option.some.inj h
    simp
  | cons n ns ih =>
    unfold asmBytes at h
    split at h
    · next b bs hb hbs =>
      obtain rfl := Option.some.inj h
      obtain ⟨hlen, hle⟩ := ih hbs
      exact ⟨congrArg (· + 1) hlen, List.forall_mem_cons.mpr ⟨asmByte_eq_some hb, hle⟩⟩
    · cases h

theorem asmBytes_map_toNat (m : List Byte) : asmBytes (m.map BitVec.toNat) = some m := by
  induction m with
  | nil => rfl
  | cons b m ih => simp [asmBytes, asmByte_toNat, ih]

/-- A list the assembler takes: within `DATA_CAP`, and of bytes. -/
def ListFits (cap : Nat) (ns : List Nat) : Prop :=
  ns.length ≤ cap ∧ ∀ n ∈ ns, n ≤ 0xFF

theorem asmList_eq_some {cap : Nat} {ns : List Nat} {d : List Byte} (h : asmList cap ns = some d) :
    ListFits cap ns ∧ d.length ≤ cap := by
  unfold asmList at h
  split at h
  · next hcap =>
    obtain ⟨hlen, hle⟩ := asmBytes_eq_some h
    exact ⟨⟨hcap, hle⟩, hlen ▸ hcap⟩
  · cases h

/-! ### Lines -/

/-- The lines the assembler accepts, with the commands they stand for (R72 to R74). -/
inductive Accepts (cap : Nat) : AsmLine → List Instr → Prop
  | crcClear : Accepts cap ⟨.crcClear, [], none⟩ [.crcClear]
  | crcByte {n : Nat} (b : Byte) (hn : n ≤ 0xFF) : Accepts cap ⟨.crcByte, [n], none⟩ [.crcByte b]
  | crcRead : Accepts cap ⟨.crcRead, [], none⟩ [.crcRead]
  | crcSum {ns : List Nat} {d : List Byte} (hns : ListFits cap ns) (hd : d.length ≤ cap) :
      Accepts cap ⟨.crcSum, [], some ns⟩ [.checksum d]
  | frameEncode {a c : Nat} {ns : List Nat} (addr : Byte) (code : Half) {d : List Byte} (ha : a ≤ 0xFF)
      (hc : c ≤ 0xFFFF) (hns : ListFits cap ns) (hd : d.length ≤ cap) :
      Accepts cap ⟨.frameEncode, [a, c], some ns⟩ [.encode addr code d]
  | frameDecode {ns : List Nat} {d : List Byte} (hns : ListFits cap ns) (hd : d.length ≤ cap) :
      Accepts cap ⟨.frameDecode, [], some ns⟩ [.decode d]
  | catLookup {c : Nat} (code : Half) (hc : c ≤ 0xFFFF) : Accepts cap ⟨.catLookup, [c], none⟩ [.lookup code]
  | catDispatch {c : Nat} {ns : List Nat} (code : Half) {d : List Byte} (hc : c ≤ 0xFFFF) (hns : ListFits cap ns)
      (hd : d.length ≤ cap) : Accepts cap ⟨.catDispatch, [c], some ns⟩ [.dispatch code d]
  | frameRequest {a c : Nat} (addr : Byte) (code : Half) (ha : a ≤ 0xFF) (hc : c ≤ 0xFFFF) :
      Accepts cap ⟨.frameRequest, [a, c], none⟩ [.encode addr code []]
  | crcFeed {ns : List Nat} (d : List Byte) (hns : ListFits cap ns) :
      Accepts cap ⟨.crcFeed, [], some ns⟩ (d.map Instr.crcByte)

/-- What `assemble` accepts, said once: an operand out of range leaves it without an answer. -/
theorem accepts_of_assemble {cap : Nat} {line : AsmLine} {is : List Instr} (h : assemble cap line = some is) :
    Accepts cap line is := by
  obtain ⟨name, numbers, bytes⟩ := line
  simp only [assemble] at h
  split at h
  case h_1 =>
    obtain rfl := Option.some.inj h
    exact .crcClear
  case h_2 =>
    obtain ⟨b, hb, rfl⟩ := Option.map_eq_some_iff.mp h
    exact .crcByte b (asmByte_eq_some hb)
  case h_3 =>
    obtain rfl := Option.some.inj h
    exact .crcRead
  case h_4 =>
    obtain ⟨d, hd, rfl⟩ := Option.map_eq_some_iff.mp h
    obtain ⟨hns, hlen⟩ := asmList_eq_some hd
    exact .crcSum hns hlen
  case h_5 =>
    split at h
    · next addr code d ha hc hd =>
      obtain rfl := Option.some.inj h
      obtain ⟨hns, hlen⟩ := asmList_eq_some hd
      exact .frameEncode addr code (asmByte_eq_some ha) (asmCode_eq_some hc) hns hlen
    · cases h
  case h_6 =>
    obtain ⟨d, hd, rfl⟩ := Option.map_eq_some_iff.mp h
    obtain ⟨hns, hlen⟩ := asmList_eq_some hd
    exact .frameDecode hns hlen
  case h_7 =>
    obtain ⟨code, hc, rfl⟩ := Option.map_eq_some_iff.mp h
    exact .catLookup code (asmCode_eq_some hc)
  case h_8 =>
    split at h
    · next code d hc hd =>
      obtain rfl := Option.some.inj h
      obtain ⟨hns, hlen⟩ := asmList_eq_some hd
      exact .catDispatch code (asmCode_eq_some hc) hns hlen
    · cases h
  case h_9 =>
    split at h
    · next addr code ha hc =>
      obtain rfl := Option.some.inj h
      exact .frameRequest addr code (asmByte_eq_some ha) (asmCode_eq_some hc)
    · cases h
  case h_10 =>
    obtain ⟨d, hd, rfl⟩ := Option.map_eq_some_iff.mp h
    exact .crcFeed d (asmList_eq_some hd).1
  case h_11 => cases h

/-- An accepted line's commands hand over no operand longer than `DATA_CAP`. -/
theorem Accepts.data_length_le {cap : Nat} {line : AsmLine} {is : List Instr} (h : Accepts cap line is) {i : Instr}
    (hi : i ∈ is) : i.data.length ≤ cap := by
  cases h with
  | crcClear | crcByte | crcRead | catLookup | frameRequest =>
    obtain rfl := List.mem_singleton.mp hi
    exact Nat.zero_le _
  | crcSum _ hd | frameEncode _ _ _ _ _ hd | frameDecode _ hd | catDispatch _ _ _ hd =>
    obtain rfl := List.mem_singleton.mp hi
    exact hd
  | crcFeed d =>
    obtain ⟨b, -, rfl⟩ := List.mem_map.mp hi
    exact Nat.zero_le _

/-- An accepted line's list fits. -/
theorem Accepts.listFits {cap : Nat} {line : AsmLine} {is : List Instr} (h : Accepts cap line is) {ns : List Nat}
    (hns : line.bytes = some ns) : ListFits cap ns := by
  cases h with
  | crcClear | crcByte | crcRead | catLookup | frameRequest => cases hns
  | crcSum hfits | frameEncode _ _ _ _ hfits | frameDecode hfits | catDispatch _ _ hfits | crcFeed _ hfits =>
    exact Option.some.inj hns ▸ hfits

/-! ### The obligations -/

/-- Settles O48: each shape of an accepted line bounds its numbers and its list, and five of the names have no shape with a
list. -/
theorem assemblerRefusesWhatDoesNotFit : Obligations.AssemblerRefusesWhatDoesNotFit := by
  intro cap line is hassemble
  have h := accepts_of_assemble hassemble
  refine ⟨fun i hi => decide_eq_true (h.data_length_le hi), fun ns hns => ?_, ?_⟩
  · obtain ⟨hlen, hle⟩ := h.listFits hns
    refine ⟨hlen, hle, ?_⟩
    cases h <;> simp at hns ⊢
  · cases h <;> simp [*]

/-- Settles O49: the numbers of bytes and codes are read back as they are; and the stream of CRC_BYTE is that of O21, from
any `CRC`. -/
theorem pseudoCommandsExpand : Obligations.PseudoCommandsExpand := by
  refine ⟨fun cap addr code => ?_, fun cap m => ⟨fun hm => ?_, fun hm => ?_⟩, fun s m hw hs => ?_⟩
  · simp [assemble, asmByte_toNat, asmCode_toNat]
  · simp [assemble, asmList, asmBytes_map_toNat, hm]
  · simp [assemble, asmList, hm]
  · obtain ⟨t, hrun, -, hcrc, hscript, -⟩ := run_crcBytes m (rest := []) hw (by simpa using hs)
    exact ⟨t, hrun, hcrc, hscript⟩

end Sys2Proof.Machine
end

section
/-!
PROOFS. `value64` (spec/42_catalog_dispatch.md R134): a finite binary64 pattern stands for an integer over 2^1075, and
above the significand range of an exponent `e` those integers are multiples of 2^e. So the multiple of 2^e nearest to the
quotient, which `roundQuotient` finds, is nearest among all patterns; the comparison is one of integers throughout.
-/

namespace Sys2Proof.Machine

/-! ### Rounding a quotient -/

/-- The two integers next to a quotient, and when each is taken. -/
theorem roundQuotient_cases (num den : Nat) :
    (roundQuotient num den = num / den ∧
      (2 * (num % den) < den ∨ 2 * (num % den) = den ∧ num / den % 2 = 0)) ∨
    (roundQuotient num den = num / den + 1 ∧
      (den < 2 * (num % den) ∨ 2 * (num % den) = den ∧ num / den % 2 = 1)) := by
  simp only [roundQuotient, Bool.or_eq_true, decide_eq_true_eq, Bool.and_eq_true, beq_iff_eq]
  split
  · exact .inr ⟨rfl, ‹_›⟩
  · exact .inl ⟨rfl, by omega⟩

/-- Where the multiples of `den` lie about `num`: the remainder below it, its complement above it, or farther away. -/
theorem abs_mul_sub_cases {num den : Nat} (hden : 0 < den) (k : Int) :
    (k = (num / den : Nat) ∧ |k * den - num| = (num % den : Nat)) ∨
    (k = (num / den : Nat) + 1 ∧ |k * den - num| = den - (num % den : Nat)) ∨
    ((k < (num / den : Nat) ∨ ((num / den : Nat) : Int) + 1 < k) ∧ den ≤ |k * den - num|) := by
  have hlt := Nat.mod_lt num hden
  have hnum : (num : Int) = (num / den : Nat) * den + (num % den : Nat) := by
    exact_mod_cast (Nat.div_add_mod' num den).symm
  have hstep {a b : Int} (h : a < b) : a * den + den ≤ b * den := by
    rw [← add_one_mul]
    exact mul_le_mul_of_nonneg_right h (by omega)
  generalize num / den = q at *
  generalize num % den = r at *
  rcases lt_trichotomy k q with hk | rfl | hk
  · right; right
    have := hstep hk
    rcases abs_cases (k * den - num) <;> omega
  · left
    rcases abs_cases (q * den - num : Int) <;> omega
  · rcases eq_or_lt_of_le (show (q : Int) + 1 ≤ k from hk) with rfl | hk
    · right; left
      rw [add_one_mul]
      rcases abs_cases (q * den + den - num : Int) <;> omega
    · right; right
      have := hstep hk
      rw [add_one_mul] at this
      rcases abs_cases (k * den - num : Int) <;> omega

/-- No multiple of `den` is nearer to `num` than the rounded one; where another is as near, the rounded one is even. -/
theorem roundQuotient_nearest {num den : Nat} (hden : 0 < den) (k : Int) :
    |(roundQuotient num den : Int) * den - num| ≤ |k * den - num| ∧
    (|(roundQuotient num den : Int) * den - num| = |k * den - num| → k ≠ roundQuotient num den →
      roundQuotient num den % 2 = 0) := by
  have hlt := Nat.mod_lt num hden
  have hk := abs_mul_sub_cases (num := num) hden k
  have hR := abs_mul_sub_cases (num := num) hden (roundQuotient num den)
  rcases roundQuotient_cases num den with ⟨h, hr⟩ | ⟨h, hr⟩
  · rw [h] at hR ⊢
    omega
  · rw [h, Nat.cast_add_one] at hR ⊢
    omega

/-- A quotient from 2^52 to below 2^53 is rounded to an integer of 53 bits, or to 2^53. -/
theorem roundQuotient_range {num den : Nat} (hlow : den * 2 ^ 52 ≤ num) (hhigh : num < den * 2 ^ 53) :
    2 ^ 52 ≤ roundQuotient num den ∧ roundQuotient num den ≤ 2 ^ 53 := by
  have hden : 0 < den := Nat.pos_of_ne_zero fun h => by simp [h] at hhigh
  have hge : 2 ^ 52 ≤ num / den := (Nat.le_div_iff_mul_le hden).mpr (Nat.mul_comm den _ ▸ hlow)
  have hlt : num / den < 2 ^ 53 := (Nat.div_lt_iff_lt_mul hden).mpr (Nat.mul_comm den _ ▸ hhigh)
  rcases roundQuotient_cases num den with ⟨h, -⟩ | ⟨h, -⟩ <;> rw [h] <;> omega

/-! ### The exponent -/

/-- `d` against `n`, each times a power of two: the powers may be moved as long as their difference stays. -/
theorem mul_two_pow_le_of_le {n d a b e m : Nat} (h : d * 2 ^ a ≤ n * 2 ^ b) (he : e + b = m + a) :
    d * 2 ^ e ≤ n * 2 ^ m := by
  refine Nat.le_of_mul_le_mul_right (c := 2 ^ b) ?_ (by positivity)
  calc
    d * 2 ^ e * 2 ^ b = d * 2 ^ a * 2 ^ m := by rw [Nat.mul_assoc, ← Nat.pow_add, he, Nat.pow_add]; ring
    _ ≤ n * 2 ^ b * 2 ^ m := Nat.mul_le_mul_right _ h
    _ = n * 2 ^ m * 2 ^ b := Nat.mul_right_comm ..

theorem mul_two_pow_lt_of_lt {n d a b e m : Nat} (h : n * 2 ^ b < d * 2 ^ a) (he : e + b = m + a) :
    n * 2 ^ m < d * 2 ^ e :=
  lt_of_not_ge fun hle => absurd (mul_two_pow_le_of_le hle (show a + m = b + e by omega)) (not_le.mpr h)

/-- `biasedExponent` is the exponent of the binade that holds `n / d`, on the ranges of `RES_INT` and `RES_DIV`. -/
theorem biasedExponent_spec {n d : Nat} (hn : 0 < n) (hn' : n < 2 ^ 32) (hd : 0 < d) (hd' : d < 2 ^ 16) :
    1007 ≤ biasedExponent n d ∧ biasedExponent n d ≤ 1054 ∧
      d * 2 ^ biasedExponent n d ≤ n * 2 ^ 1023 ∧ n * 2 ^ 1023 < d * 2 ^ (biasedExponent n d + 1) := by
  have hn2 : 2 ^ n.log2 ≤ n := Nat.log2_self_le hn.ne'
  have hn2' : n < 2 ^ (n.log2 + 1) := Nat.lt_log2_self
  have hd2 : 2 ^ d.log2 ≤ d := Nat.log2_self_le hd.ne'
  have hd2' : d < 2 ^ (d.log2 + 1) := Nat.lt_log2_self
  have ha : n.log2 < 32 := (Nat.log2_lt hn.ne').mpr hn'
  have hb : d.log2 < 16 := (Nat.log2_lt hd.ne').mpr hd'
  unfold biasedExponent
  split
  · next hle =>
    have hlt : n * 2 ^ d.log2 < d * 2 ^ (n.log2 + 1) := by
      rw [Nat.mul_comm d]
      exact Nat.mul_lt_mul_of_lt_of_le hn2' hd2 (by positivity)
    exact ⟨by omega, by omega, mul_two_pow_le_of_le hle (by omega), mul_two_pow_lt_of_lt hlt (by omega)⟩
  · next hlt =>
    have hle : d * 2 ^ n.log2 ≤ n * 2 ^ (d.log2 + 1) := by
      rw [Nat.mul_comm n]
      exact Nat.mul_le_mul hd2'.le hn2
    exact ⟨by omega, by omega, mul_two_pow_le_of_le hle (by omega), mul_two_pow_lt_of_lt (not_le.mp hlt) (by omega)⟩

/-- With that exponent the significand's quotient has 53 bits. -/
theorem scaled_quotient_range {n d e : Nat} (he : e ≤ 1075) (hlow : d * 2 ^ e ≤ n * 2 ^ 1023)
    (hhigh : n * 2 ^ 1023 < d * 2 ^ (e + 1)) :
    d * 2 ^ 52 ≤ n * 2 ^ (1075 - e) ∧ n * 2 ^ (1075 - e) < d * 2 ^ 53 :=
  ⟨mul_two_pow_le_of_le hlow (by omega), mul_two_pow_lt_of_lt hhigh (by omega)⟩

/-! ### Binary64 patterns -/

/-- A multiple of 2^e, or an integer below the significands with exponent `e`. -/
def Spaced (e : Nat) (z : Int) : Prop :=
  z.natAbs < 2 ^ 52 * 2 ^ e ∨ (2 ^ e : Int) ∣ z

theorem Spaced.neg {e : Nat} {z : Int} (h : Spaced e z) : Spaced e (-z) := by
  simpa [Spaced] using h

/-- The integers of the patterns with the exponent field `E` and the fraction `f`: spaced for every exponent, as the
fraction is below 2^52. -/
theorem spaced_of_fields (E : Nat) {f e : Nat} (hf : f < 2 ^ 52) (he : 1 ≤ e) :
    Spaced e ((if E = 0 then f * 2 else (2 ^ 52 + f) * 2 ^ E : Nat) : Int) := by
  have htwo : 2 * 2 ^ (e - 1) = 2 ^ e := by rw [← Nat.pow_succ', Nat.succ_eq_add_one, Nat.sub_add_cancel he]
  have hpos : 1 ≤ 2 ^ (e - 1) := Nat.one_le_two_pow
  split
  · left
    rw [Int.natAbs_natCast]
    omega
  rcases Nat.lt_or_ge E e with hlt | hge
  · left
    rw [Int.natAbs_natCast]
    calc
      (2 ^ 52 + f) * 2 ^ E ≤ (2 ^ 52 + f) * 2 ^ (e - 1) :=
        Nat.mul_le_mul_left _ (Nat.pow_le_pow_right (by decide) (by omega))
      _ < (2 ^ 52 * 2) * 2 ^ (e - 1) := Nat.mul_lt_mul_of_pos_right (by omega) hpos
      _ = 2 ^ 52 * 2 ^ e := by rw [Nat.mul_assoc, htwo]
  · right
    exact_mod_cast Dvd.dvd.mul_left (Nat.pow_dvd_pow 2 hge) _

/-- A finite pattern stands for an integer over 2^1075, and the integer is spaced for every exponent. -/
theorem ofBinary64_spaced {b : BitVec 64} {v : Rat} (h : ofBinary64 b = some v) :
    ∃ z : Int, v = mkRat z (2 ^ 1075) ∧ ∀ e, 1 ≤ e → Spaced e z := by
  simp only [ofBinary64] at h
  split at h
  · cases h
  have hspaced (e : Nat) (he : 1 ≤ e) :=
    spaced_of_fields (b.toNat / 2 ^ 52 % 2 ^ 11) (Nat.mod_lt b.toNat (show 2 ^ 52 > 0 by decide)) he
  refine ⟨_, (Option.some.inj h).symm, fun e he => ?_⟩
  split
  · exact (hspaced e he).neg
  · exact hspaced e he

/-- The number of a pattern put together from a sign, an exponent in the normal range and a fraction. -/
theorem ofBinary64_ofNat (neg : Prop) [Decidable neg] {E f : Nat} (hE : 1 ≤ E) (hE' : E < 2047) (hf : f < 2 ^ 52) :
    ofBinary64 (BitVec.ofNat 64 ((if neg then 2 ^ 63 else 0) + (E * 2 ^ 52 + f))) =
      some (mkRat (if neg then -(((2 ^ 52 + f) * 2 ^ E : Nat) : Int) else ((2 ^ 52 + f) * 2 ^ E : Nat))
        (2 ^ 1075)) := by
  obtain ⟨s, hs, hs1, hneg⟩ : ∃ s, (if neg then 2 ^ 63 else 0) = s * 2 ^ 63 ∧ s ≤ 1 ∧ (s = 1 ↔ neg) := by
    by_cases h : neg
    · exact ⟨1, by simp [h], by simp [h]⟩
    · exact ⟨0, by simp [h], by simp [h]⟩
  rw [hs]
  have hlt : s * 2 ^ 63 + (E * 2 ^ 52 + f) < 2 ^ 64 := by omega
  have htoNat : (BitVec.ofNat 64 (s * 2 ^ 63 + (E * 2 ^ 52 + f))).toNat = s * 2 ^ 63 + (E * 2 ^ 52 + f) :=
    (BitVec.toNat_ofNat ..).trans (Nat.mod_eq_of_lt hlt)
  have hfraction : (s * 2 ^ 63 + (E * 2 ^ 52 + f)) % 2 ^ 52 = f := by omega
  have hquotient : (s * 2 ^ 63 + (E * 2 ^ 52 + f)) / 2 ^ 52 = s * 2 ^ 11 + E := by omega
  have hexponent : (s * 2 ^ 11 + E) % 2 ^ 11 = E :=
    (Nat.mul_add_mod' ..).trans (Nat.mod_eq_of_lt (hE'.trans (by decide)))
  have hsign : 2 ^ 63 ≤ s * 2 ^ 63 + (E * 2 ^ 52 + f) ↔ neg := by
    rw [← hneg]
    omega
  simp only [ofBinary64, htoNat, hfraction, hquotient, hexponent, hsign, if_neg (show E ≠ 0 by omega),
    if_neg (show E ≠ 2047 by omega)]

/-- The pattern of +0.0. -/
theorem ofBinary64_zero : ofBinary64 0#64 = some 0 :=
  congrArg some (Rat.zero_mkRat _)

/-- A rounded significand, carried into the exponent field where it is 2^53, stands for its multiple of 2^e. -/
theorem exists_exponent_fraction (e : Nat) {R : Nat} (hlow : 2 ^ 52 ≤ R) (hhigh : R ≤ 2 ^ 53) :
    ∃ E f, e * 2 ^ 52 + (R - 2 ^ 52) = E * 2 ^ 52 + f ∧ f < 2 ^ 52 ∧ e ≤ E ∧ E ≤ e + 1 ∧
      (2 ^ 52 + f) * 2 ^ E = R * 2 ^ e ∧ f % 2 = R % 2 := by
  rcases hhigh.lt_or_eq with h | rfl
  · exact ⟨e, R - 2 ^ 52, rfl, by omega, le_rfl, by omega, by rw [Nat.add_sub_cancel' hlow], by omega⟩
  · exact ⟨e + 1, 0, by omega, by omega, by omega, le_rfl, by rw [Nat.pow_succ]; omega, rfl⟩

/-! ### The nearest pattern -/

/-- Among the integers spaced for `e`, the rounded multiple of 2^e is nearest to the quotient of `n * 2^m` by `d`. -/
theorem rounded_nearest {n d e m : Nat} (hd : 0 < d) (he : e ≤ m) (hlow : d * 2 ^ 52 ≤ n * 2 ^ (m - e)) {z : Int}
    (hz : Spaced e z) {R : Nat} (hR : R = roundQuotient (n * 2 ^ (m - e)) d) :
    |((R * 2 ^ e : Nat) : Int) * d - n * (2 ^ m : Nat)| ≤ |z * d - n * (2 ^ m : Nat)| ∧
    (|((R * 2 ^ e : Nat) : Int) * d - n * (2 ^ m : Nat)| = |z * d - n * (2 ^ m : Nat)| →
      z ≠ (R * 2 ^ e : Nat) → R % 2 = 0) := by
  have hscale : n * 2 ^ m = n * 2 ^ (m - e) * 2 ^ e := by rw [Nat.mul_assoc, ← Nat.pow_add, Nat.sub_add_cancel he]
  have hmul (k : Int) : |k * (2 ^ e : Nat) * d - n * (2 ^ m : Nat)| =
      |k * d - (n * 2 ^ (m - e) : Nat)| * (2 ^ e : Nat) := by
    rw [← Nat.cast_mul, hscale, Nat.cast_mul _ (2 ^ e), mul_right_comm, ← sub_mul, abs_mul, Nat.abs_cast]
  have hpos : (0 : Int) < (2 ^ e : Nat) := by positivity
  rw [Nat.cast_mul, hmul, hR]
  rcases hz with hsmall | hdvd
  · have hlt : |(roundQuotient (n * 2 ^ (m - e)) d : Int) * d - (n * 2 ^ (m - e) : Nat)| * (2 ^ e : Nat) <
        |z * d - n * (2 ^ m : Nat)| :=
      calc
        _ ≤ |((2 ^ 52 : Nat) : Int) * d - (n * 2 ^ (m - e) : Nat)| * (2 ^ e : Nat) :=
          mul_le_mul_of_nonneg_right (roundQuotient_nearest hd _).1 hpos.le
        _ = |((2 ^ 52 : Nat) : Int) * (2 ^ e : Nat) * d - n * (2 ^ m : Nat)| := (hmul _).symm
        _ = n * (2 ^ m : Nat) - ((2 ^ 52 * 2 ^ e : Nat) : Int) * d := by
          rw [← Nat.cast_mul, abs_sub_comm, abs_of_nonneg]
          rw [sub_nonneg, ← Nat.cast_mul, ← Nat.cast_mul, Nat.cast_le, hscale, Nat.mul_right_comm, Nat.mul_comm _ d]
          exact Nat.mul_le_mul_right _ hlow
        _ < n * (2 ^ m : Nat) - z * d :=
          sub_lt_sub_left (mul_lt_mul_of_pos_right (by omega) (by omega)) _
        _ ≤ |z * d - n * (2 ^ m : Nat)| := by
          rw [abs_sub_comm]
          exact le_abs_self _
    exact ⟨hlt.le, fun heq => absurd heq hlt.ne⟩
  · obtain ⟨k, hk⟩ := hdvd
    obtain rfl : z = k * (2 ^ e : Nat) := by rw [hk, mul_comm, Nat.cast_pow, Nat.cast_ofNat]
    obtain ⟨hle, htie⟩ := roundQuotient_nearest (num := n * 2 ^ (m - e)) hd k
    rw [hmul]
    refine ⟨mul_le_mul_of_nonneg_right hle hpos.le, fun heq hne => htie (mul_right_cancel₀ hpos.ne' heq) ?_⟩
    exact fun h => hne (h ▸ rfl)

/-- The comparison with the sign of the integer put back. -/
theorem signed_rounded_nearest {x : Int} {d e m : Nat} (hd : 0 < d) (he : e ≤ m)
    (hlow : d * 2 ^ 52 ≤ x.natAbs * 2 ^ (m - e)) {z : Int} (hz : Spaced e z) {R : Nat}
    (hR : R = roundQuotient (x.natAbs * 2 ^ (m - e)) d) {v : Int}
    (hv : v = if x < 0 then -((R * 2 ^ e : Nat) : Int) else (R * 2 ^ e : Nat)) :
    |v * d - x * (2 ^ m : Nat)| ≤ |z * d - x * (2 ^ m : Nat)| ∧
    (|v * d - x * (2 ^ m : Nat)| = |z * d - x * (2 ^ m : Nat)| → z ≠ v → R % 2 = 0) := by
  by_cases hneg : x < 0
  · rw [if_pos hneg] at hv
    have hx : x = -(x.natAbs : Int) := by omega
    have hflip (k : Int) : |k * d - x * (2 ^ m : Nat)| = |-k * d - x.natAbs * (2 ^ m : Nat)| := by
      rw [← abs_neg]
      congr 1
      conv_lhs => rw [hx]
      ring
    obtain ⟨hle, htie⟩ := rounded_nearest hd he hlow hz.neg hR
    rw [hflip, hflip, hv, neg_neg]
    exact ⟨hle, fun heq hne => htie heq fun h => hne (neg_eq_iff_eq_neg.mp h)⟩
  · rw [if_neg hneg] at hv
    have hx : x = x.natAbs := by omega
    obtain ⟨hle, htie⟩ := rounded_nearest hd he hlow hz hR
    rw [← hx] at hle htie
    exact hv ▸ ⟨hle, htie⟩

/-- The distance of two quotients, over a common denominator. -/
theorem abs_mkRat_sub_mkRat (z x : Int) {p d : Nat} (hp : 0 < p) (hd : 0 < d) :
    |mkRat z p - mkRat x d| = (|z * d - x * p| : Int) / ((p * d : Nat) : Rat) := by
  have hp' : (p : Rat) ≠ 0 := by positivity
  have hd' : (d : Rat) ≠ 0 := by positivity
  rw [Rat.mkRat_eq_div, Rat.mkRat_eq_div, div_sub_div _ _ hp' hd', abs_div]
  rw [abs_of_pos (show (0 : Rat) < p * d by positivity), mul_comm (p : Rat) x]
  push_cast
  rfl

/-- Quotients by one denominator compare as the integers over the common one do. -/
theorem mkRat_nearest {z v x : Int} {p d : Nat} {P : Prop} (hp : 0 < p) (hd : 0 < d)
    (h : |v * d - x * p| ≤ |z * d - x * p| ∧ (|v * d - x * p| = |z * d - x * p| → z ≠ v → P)) :
    |mkRat v p - mkRat x d| ≤ |mkRat z p - mkRat x d| ∧
    (|mkRat v p - mkRat x d| = |mkRat z p - mkRat x d| → mkRat z p ≠ mkRat v p → P) := by
  obtain ⟨hle, htie⟩ := h
  have hden : (0 : Rat) < ((p * d : Nat) : Rat) := by positivity
  rw [abs_mkRat_sub_mkRat z x hp hd, abs_mkRat_sub_mkRat v x hp hd]
  refine ⟨div_le_div_of_nonneg_right (Int.cast_le.mpr hle) hden.le, fun heq hne => htie ?_ ?_⟩
  · exact Int.cast_injective ((div_left_inj' hden.ne').mp heq)
  · exact fun h => hne (h ▸ rfl)

/-- `value64` of an integer other than 0: the rounded multiple of 2^e, `e` the exponent of the quotient's binade, with the
integer's sign; its lowest bit is that of the significand. -/
theorem value64_of_ne_zero {x : BitVec 32} {d : Half} (hd : d ≠ 0x0000#16) (hx : x.toInt ≠ 0) :
    ∃ (e R : Nat) (b : BitVec 64), 1 ≤ e ∧ e ≤ 1075 ∧ d.toNat * 2 ^ 52 ≤ x.toInt.natAbs * 2 ^ (1075 - e) ∧
      R = roundQuotient (x.toInt.natAbs * 2 ^ (1075 - e)) d.toNat ∧ value64 x d = some b ∧
      ofBinary64 b = some (mkRat (if x.toInt < 0 then -((R * 2 ^ e : Nat) : Int) else (R * 2 ^ e : Nat)) (2 ^ 1075)) ∧
      (R % 2 = 0 → b.getLsbD 0 = false) := by
  have hpos : 0 < x.toInt.natAbs := Int.natAbs_pos.mpr hx
  have hlt : x.toInt.natAbs < 2 ^ 32 := by
    have := x.toInt_lt
    have := x.le_toInt
    omega
  have hdpos : 0 < d.toNat := Nat.pos_of_ne_zero fun h => hd (BitVec.eq_of_toNat_eq h)
  obtain ⟨hmin, hmax, hlower, hupper⟩ := biasedExponent_spec hpos hlt hdpos d.isLt
  obtain ⟨hlow, hhigh⟩ := scaled_quotient_range (by omega) hlower hupper
  obtain ⟨hge, hle⟩ := roundQuotient_range hlow hhigh
  obtain ⟨E, f, hfields, hf, hE, hE', hnumber, hparity⟩ :=
    exists_exponent_fraction (biasedExponent x.toInt.natAbs d.toNat) hge hle
  have hvalue : value64 x d = some (BitVec.ofNat 64 ((if x.toInt < 0 then 2 ^ 63 else 0) + (E * 2 ^ 52 + f))) := by
    rw [value64, if_neg hd, if_neg hx, ← hfields]
    rfl
  refine ⟨_, _, _, by omega, by omega, hlow, rfl, hvalue, ?_, fun heven => ?_⟩
  · rw [ofBinary64_ofNat _ (by omega) (by omega) hf, hnumber]
  · rw [BitVec.getLsbD_ofNat, Nat.testBit_zero]
    split <;> simp <;> omega

/-! ### The obligation -/

/-- Settles O41: every pattern stands for an integer spaced for the exponent of the quotient's binade, and the rounded one is
the nearest of these. -/
theorem value64IsTheNearestBinary64 : Obligations.Value64IsTheNearestBinary64 := by
  refine fun x d => ⟨fun hd => ⟨if_pos hd, if_pos hd⟩, fun hd => ?_⟩
  obtain ⟨q, hq, hmul⟩ := value_of_divisor x hd
  have hdpos : 0 < d.toNat := Nat.pos_of_ne_zero fun h => hd (BitVec.eq_of_toNat_eq h)
  by_cases hx : x.toInt = 0
  · obtain rfl : 0 = q := by
      rw [hx, Int.cast_zero] at hmul
      exact ((mul_eq_zero.mp hmul).resolve_right (by positivity)).symm
    refine ⟨0, 0, 0#64, hq, hmul, (if_neg hd).trans (if_pos hx), ofBinary64_zero, fun _ => rfl, fun b' v' _ => ?_⟩
    exact ⟨by simp, fun _ _ => rfl⟩
  obtain rfl : mkRat x.toInt d.toNat = q := Option.some.inj ((if_neg hd).symm.trans hq)
  obtain ⟨e, R, b, he, he', hlow, hR, hb, hnumber, heven⟩ := value64_of_ne_zero hd hx
  refine ⟨_, _, b, hq, hmul, hb, hnumber, fun h0 => absurd (by rw [h0]; rfl) hx, fun b' v' hb' => ?_⟩
  obtain ⟨z, hz, hspaced⟩ := ofBinary64_spaced hb'
  rw [hz]
  obtain ⟨hle, htie⟩ :=
    mkRat_nearest (by positivity) hdpos (signed_rounded_nearest hdpos he' hlow (hspaced e he) hR rfl)
  exact ⟨hle, fun heq hne => heven (htie heq hne)⟩

end Sys2Proof.Machine
end
